-- ==== Sys2Proof/Word.lean ====
section
/-! DEFINITION. The words of the block's three instruction-carrying formats (R48): CMD (host to block), BUSREQ (block to
environment) and FSM (the internal state code). RESULT and STATUS words are views of State (Machine/Flags.lean). -/

namespace Sys2Proof

/-- One byte (R31: "a byte is 8 bits"). -/
abbrev Byte := BitVec 8

/-- A line or output level (R53): `false` = low (0), `true` = high (1; released under open drain, R70). -/
abbrev Level := Bool

/-- The bit of a one-bit field. -/
def bitOf (b : Bool) : BitVec 1 := if b then 1#1 else 0#1

/-- A word in one of the three formats that carry an operation (R48). The formats have separate code spaces. -/
inductive Word where
  /-- The 8-bit host command word (R49). -/
  | cmd (w : BitVec 8)
  /-- The 34-bit bus request word (R53). -/
  | bus (w : BitVec 34)
  /-- The 5-bit FSM state code (R55). -/
  | fsm (c : BitVec 5)
  deriving DecidableEq, Repr

end Sys2Proof
end

