-- ==== Sys2Proof/Syntax.lean ====
section
/-! DEFINITION. The operations of the block: one constructor per row of spec/opcode_table.json, that is the host command words
(CMD), the bus requests (BUSREQ) and the FSM states (FSM). -/

namespace Sys2Proof

/-- The two sensor encodings (R2). VAR = 0 is VariantA, VAR = 1 is VariantB (R49). -/
inductive Variant where
  | variantA
  | variantB
  deriving DecidableEq, Repr

/-- The two pin directions (R13, R53): 0 = Input, 1 = OutputOpenDrain. -/
inductive PinDir where
  | input
  | outputOpenDrain
  deriving DecidableEq, Repr

/-- Every operation of the opcode table. -/
inductive Instr where
  /-- READ (R62): CMD with GO = 1, VAR, reserved 0. -/
  | read (variant : Variant)
  /-- NOCMD (R50): CMD with GO = 0; bits 7:1 are ignored. -/
  | nocmd (ignored : BitVec 7)
  /-- RESERVED_CMD (R50): CMD with GO = 1 and bits 7:2 not all 0. -/
  | reservedCmd (var : Variant) (reserved : BitVec 6)
  /-- SETDIR (R69). -/
  | setdir (mode : PinDir)
  /-- SETLVL (R70). -/
  | setlvl (level : Level)
  /-- GETLVL (R71). -/
  | getlvl
  /-- DELAY (R72): n microseconds. -/
  | delay (n : BitVec 32)
  /-- IDLE (R78). -/
  | idle
  /-- INIT_DIR (R79). -/
  | initDir
  /-- INIT_LVL (R80). -/
  | initLvl
  /-- A_DIR (R81). -/
  | aDir
  /-- A_LOW (R82). -/
  | aLow
  /-- A_WAIT (R83). -/
  | aWait
  /-- A_REL (R84). -/
  | aRel
  /-- B_DIR (R85). -/
  | bDir
  /-- B_POLL (R86). -/
  | bPoll
  /-- C_POLL (R87). -/
  | cPoll
  /-- D_POLL (R88). -/
  | dPoll
  /-- BIT_LOW (R90). -/
  | bitLow
  /-- BIT_HIGH (R91). -/
  | bitHigh
  /-- REL_DIR (R98). -/
  | relDir
  /-- REL_LVL (R99). -/
  | relLvl
  /-- VALIDATE (R100). -/
  | validate
  /-- DECODE (R103). -/
  | decode
  /-- RESERVED_FSM (R20): codes 0x11 to 0x1F. -/
  | reservedFsm (code : BitVec 5)
  deriving DecidableEq, Repr

end Sys2Proof
end

