-- ==== Sys2Proof/WellFormed.lean ====
section
/-! DEFINITION. Which terms of Instr stand for a row of the opcode table. Most operands admit every value of their type. -/

namespace Sys2Proof

/-- RESERVED_CMD is the row "GO = 1 with any of bits 7:2 set" (R50), so its reserved field is not 0; RESERVED_FSM is the row of the
codes 0x11 to 0x1F (R55). Every other operand is legal at every value. -/
def Instr.wf : Instr → Bool
  | .reservedCmd _ r => r != 0#6
  | .reservedFsm c => decide (0x11#5 ≤ c)
  | .read _ | .nocmd _ | .setdir _ | .setlvl _ | .getlvl | .delay _ => true
  | .idle | .initDir | .initLvl | .aDir | .aLow | .aWait | .aRel | .bDir => true
  | .bPoll | .cPoll | .dPoll | .bitLow | .bitHigh | .relDir | .relLvl | .validate | .decode => true

end Sys2Proof
end

