-- ==== Sys2Proof/Decode.lean ====
section
/-! DEFINITION. Decoding of the three formats (total; a word that stands for no row is rejected by name), then the encoder, written
from the same tables of 30_encoding.md, and the opcode table's match and mask of each row. -/

namespace Sys2Proof

/-- Why a BUSREQ word stands for no row: R53 gives each op the only argument bits the block issues. -/
inductive DecodeError where
  /-- SETDIR with arg[31:1] not 0. -/
  | setdirArg
  /-- SETLVL with arg[31:1] not 0. -/
  | setlvlArg
  /-- GETLVL with arg not 0. -/
  | getlvlArg
  deriving DecidableEq, Repr

/-- The 1-bit encoding of the variant (R49, R21). -/
def variantBit : Variant → BitVec 1
  | .variantA => 0#1
  | .variantB => 1#1

/-- The variant a 1-bit field stands for (R49). -/
def variantOfBit (b : BitVec 1) : Variant := if b = 0#1 then .variantA else .variantB

/-- The 1-bit encoding of the pin direction (R53, R28). -/
def dirBit : PinDir → BitVec 1
  | .input => 0#1
  | .outputOpenDrain => 1#1

/-- R49, R50: bit 0 is GO, bit 1 is VAR, bits 7:2 are reserved. -/
def decodeCmd (w : BitVec 8) : Instr :=
  if w.extractLsb' 0 1 = 0#1 then .nocmd (w.extractLsb' 1 7)
  else if w.extractLsb' 2 6 = 0#6 then .read (variantOfBit (w.extractLsb' 1 1))
  else .reservedCmd (variantOfBit (w.extractLsb' 1 1)) (w.extractLsb' 2 6)

/-- R53: op in bits 33:32, arg in bits 31:0. -/
def decodeBus (w : BitVec 34) : Except DecodeError Instr :=
  let op := w.extractLsb' 32 2
  let arg := w.extractLsb' 0 32
  if op = 0#2 then
    if arg = 0#32 then .ok (.setdir .input) else if arg = 1#32 then .ok (.setdir .outputOpenDrain) else .error .setdirArg
  else if op = 1#2 then
    if arg = 0#32 then .ok (.setlvl false) else if arg = 1#32 then .ok (.setlvl true) else .error .setlvlArg
  else if op = 2#2 then
    if arg = 0#32 then .ok .getlvl else .error .getlvlArg
  else .ok (.delay arg)

/-- R55: the 17 legal codes; the others are RESERVED_FSM. -/
def decodeFsm (c : BitVec 5) : Instr :=
  match c.toNat with
  | 0x00 => .idle
  | 0x01 => .initDir
  | 0x02 => .initLvl
  | 0x03 => .aDir
  | 0x04 => .aLow
  | 0x05 => .aWait
  | 0x06 => .aRel
  | 0x07 => .bDir
  | 0x08 => .bPoll
  | 0x09 => .cPoll
  | 0x0A => .dPoll
  | 0x0B => .bitLow
  | 0x0C => .bitHigh
  | 0x0D => .relDir
  | 0x0E => .relLvl
  | 0x0F => .validate
  | 0x10 => .decode
  | _ => .reservedFsm c

/-- Decoding, total over the words of the three formats. -/
def decode : Word → Except DecodeError Instr
  | .cmd w => .ok (decodeCmd w)
  | .bus w => decodeBus w
  | .fsm c => .ok (decodeFsm c)

/-- R53, R54: the BUSREQ word of an op and an argument. -/
def busWord (op : BitVec 2) (arg : BitVec 32) : BitVec 34 := op ++ arg

/-- `SETDIR m` (R69). -/
def setdirWord (m : PinDir) : BitVec 34 := busWord 0#2 ((dirBit m).zeroExtend 32)

/-- `SETLVL v` (R70). -/
def setlvlWord (v : Level) : BitVec 34 := busWord 1#2 ((bitOf v).zeroExtend 32)

/-- `GETLVL` (R71). -/
def getlvlWord : BitVec 34 := busWord 2#2 0#32

/-- `DELAY n` (R72). -/
def delayWord (n : BitVec 32) : BitVec 34 := busWord 3#2 n

/-- The words of the opcode table's rows. -/
def encode : Instr → Word
  | .read v => .cmd (0#6 ++ variantBit v ++ 1#1)
  | .nocmd x => .cmd (x ++ 0#1)
  | .reservedCmd v r => .cmd (r ++ variantBit v ++ 1#1)
  | .setdir m => .bus (setdirWord m)
  | .setlvl v => .bus (setlvlWord v)
  | .getlvl => .bus getlvlWord
  | .delay n => .bus (delayWord n)
  | .idle => .fsm 0x00#5
  | .initDir => .fsm 0x01#5
  | .initLvl => .fsm 0x02#5
  | .aDir => .fsm 0x03#5
  | .aLow => .fsm 0x04#5
  | .aWait => .fsm 0x05#5
  | .aRel => .fsm 0x06#5
  | .bDir => .fsm 0x07#5
  | .bPoll => .fsm 0x08#5
  | .cPoll => .fsm 0x09#5
  | .dPoll => .fsm 0x0A#5
  | .bitLow => .fsm 0x0B#5
  | .bitHigh => .fsm 0x0C#5
  | .relDir => .fsm 0x0D#5
  | .relLvl => .fsm 0x0E#5
  | .validate => .fsm 0x0F#5
  | .decode => .fsm 0x10#5
  | .reservedFsm c => .fsm c

/-- The word that the host's numbering (nbits bits of a row, in whole bytes, value w) stands for. BUSREQ is the only format wider
than a byte. CMD and FSM both fill one byte and their code spaces overlap, so a one-byte value is read as the FSM code wherever it
fits in 5 bits, and as a CMD word otherwise (log entry 8). -/
def tableWord (nbits w : Nat) : Option Word :=
  if nbits ≤ 8 then
    if w < 32 then some (.fsm (BitVec.ofNat 5 w)) else if w < 256 then some (.cmd (BitVec.ofNat 8 w)) else none
  else if nbits ≤ 40 then
    if w < 2 ^ 34 then some (.bus (BitVec.ofNat 34 w)) else none
  else none

/-- What the decoder reads from an instruction numbered as spec/opcode_table.json numbers its bits. -/
def decodeTableWord (nbits w : Nat) : Option Instr :=
  match tableWord nbits w with
  | none => none
  | some x => (decode x).toOption

/-- A row's mask and match in spec/opcode_table.json. -/
structure Row where
  mask : Nat
  pattern : Nat
  deriving DecidableEq, Repr

/-- The opcode table's row of an instruction. -/
def tableRow : Instr → Row
  | .read _ => ⟨0xFD, 0x01⟩
  | .nocmd _ => ⟨0x01, 0x00⟩
  | .reservedCmd _ _ => ⟨0x01, 0x01⟩
  | .setdir _ => ⟨0x3FFFFFFFE, 0x000000000⟩
  | .setlvl _ => ⟨0x3FFFFFFFE, 0x100000000⟩
  | .getlvl => ⟨0x3FFFFFFFF, 0x200000000⟩
  | .delay _ => ⟨0x300000000, 0x300000000⟩
  | .idle => ⟨0x1F, 0x00⟩
  | .initDir => ⟨0x1F, 0x01⟩
  | .initLvl => ⟨0x1F, 0x02⟩
  | .aDir => ⟨0x1F, 0x03⟩
  | .aLow => ⟨0x1F, 0x04⟩
  | .aWait => ⟨0x1F, 0x05⟩
  | .aRel => ⟨0x1F, 0x06⟩
  | .bDir => ⟨0x1F, 0x07⟩
  | .bPoll => ⟨0x1F, 0x08⟩
  | .cPoll => ⟨0x1F, 0x09⟩
  | .dPoll => ⟨0x1F, 0x0A⟩
  | .bitLow => ⟨0x1F, 0x0B⟩
  | .bitHigh => ⟨0x1F, 0x0C⟩
  | .relDir => ⟨0x1F, 0x0D⟩
  | .relLvl => ⟨0x1F, 0x0E⟩
  | .validate => ⟨0x1F, 0x0F⟩
  | .decode => ⟨0x1F, 0x10⟩
  | .reservedFsm _ => ⟨0x10, 0x10⟩

/-- The bits of a word as one number, bit 0 the least significant. -/
def wordBits : Word → Nat
  | .cmd w => w.toNat
  | .bus w => w.toNat
  | .fsm c => c.toNat

end Sys2Proof
end

