-- ==== Sys2Proof/Config.lean ====
section
/-! DEFINITION. The parameters of the block (R6), its open parameters (R8) and its free value: the level the line shows. -/

namespace Sys2Proof

/-- The protocol timing parameters of R6, in microseconds. The budgets and `P_G` are 16 bits because R6 bounds a budget by
`65535 - P_G`; `P_T_START` is 32 bits (R6, R54). A model's State carries them as a constant (log entry 3). -/
structure Params where
  /-- `P_G`: poll granularity. -/
  pG : BitVec 16
  /-- `P_T_START`: length of the host start pulse. -/
  pTStart : BitVec 32
  /-- `P_B_ACK1`: budget of B_POLL. -/
  pBAck1 : BitVec 16
  /-- `P_B_ACK2`: budget of C_POLL. -/
  pBAck2 : BitVec 16
  /-- `P_B_ACK3`: budget of D_POLL. -/
  pBAck3 : BitVec 16
  /-- `P_B_LOW`: budget of BIT_LOW. -/
  pBLow : BitVec 16
  /-- `P_B_HIGH`: budget of BIT_HIGH. -/
  pBHigh : BitVec 16
  deriving DecidableEq, Repr

/-- The source's values (R6, column "default"). -/
def Params.default : Params where
  pG := 2#16
  pTStart := 20000#32
  pBAck1 := 40#16
  pBAck2 := 88#16
  pBAck3 := 88#16
  pBLow := 65#16
  pBHigh := 75#16

/-- R6, "Legal values": `P_G` is at least 1 and each budget is at most `65535 - P_G`. (`P_T_START` is at most 2^32 - 1 by its type.) -/
def Params.legal (p : Params) : Bool :=
  decide (1 ≤ p.pG.toNat) && decide (p.pBAck1.toNat + p.pG.toNat ≤ 65535) && decide (p.pBAck2.toNat + p.pG.toNat ≤ 65535)
    && decide (p.pBAck3.toNat + p.pG.toNat ≤ 65535) && decide (p.pBLow.toNat + p.pG.toNat ≤ 65535)
    && decide (p.pBHigh.toNat + p.pG.toNat ≤ 65535)

/-- R47, R71 (U2): the level the line shows at the n-th GETLVL of the machine's life, where State lists no answer for it. A free
draw: no value of it is known to Lean, so what is proved holds for every line (log entry 1). -/
opaque Config.lineLevel : Nat → Level

/-- R8 `BusLatency` (U6): the time a bus request other than DELAY takes on the real bus. OPEN; "no rule depends on it". -/
opaque Config.busLatency : Nat

/-- R8 `T_REST` (U3): the spacing between reads the sensor needs. OPEN; "a host duty, never checked by the block". -/
opaque Config.tRest : Nat

/-- R8 `F` and `toFloat` (U5), as an argument: a format whose values are `F`, each with its exact rational value, and the
conversion of a RESULT word. `nearest` is R108: "Any `toFloat` used must map t to a floating value nearest to t / 10". -/
structure ExposedFormat (F : Type) where
  value : F → ℚ
  toFloat : BitVec 16 → F
  nearest : ∀ (t : BitVec 16) (x : F), |value (toFloat t) - (t.toInt : ℚ) / 10| ≤ |value x - (t.toInt : ℚ) / 10|

end Sys2Proof
end

