-- ==== Sys2Proof/Machine/State.lean ====
section
/-! DEFINITION. The machine's state: the tuple of R16, the configuration every step is given (R6), and what the model adds to be a
deterministic machine: the environment's coming inputs, the notional time t_blk (R46) and the bus port's record. -/

namespace Sys2Proof.Machine

/-- The error code `err` of STATUS (R22, R110), 2 bits: 00, 01, 10, 11 in this order. -/
inductive Err where
  | ok
  | timeout
  | checksumMismatch
  /-- Code 11, never written (R111). -/
  | invalidArgument
  deriving DecidableEq, Repr

/-- Frame space (R31) as address and byte pairs, addresses rising; an unlisted address reads 0x00, the reset value R33 gives every
byte, and no pair holds 0x00. `Memory.wf` (Machine/Ops.lean) says so. -/
abbrev Memory := List Host.Cell

/-- What the outside does before a step of the block (R14, R68, R126). -/
inductive Input where
  /-- Nothing: the FSM takes its step. -/
  | tick
  /-- The host presents a CMD word (R49); it is consumed whether or not it is accepted (R63, R114: "ignored, not queued"). -/
  | cmd (w : BitVec 8)
  /-- The platform asserts reset (R126). -/
  | reset
  deriving DecidableEq, Repr

/-- One completed bus request (R53) with its response: the level for GETLVL, none for an acknowledge (R48, BUSRSP). -/
structure BusEvent where
  req : BitVec 34
  rsp : Option Level
  deriving DecidableEq, Repr

/-- The state. From `fsm` to `pinOut`: the registers of R16, each at the width the spec gives it. -/
@[ext]
structure State where
  /-- The configuration (R6): "a parameter of every step" (R16). No step writes it. -/
  cfg : Params
  /-- 5 bits (R18): the code of the FSM state the next step executes. -/
  fsm : BitVec 5
  /-- 1 bit (R19): the poll sub-state. -/
  smp : Bool
  /-- 1 bit (R21): the variant latch. -/
  variant : Variant
  /-- 1 bit (R22). -/
  busy : Bool
  /-- 1 bit (R22). -/
  done : Bool
  /-- 2 bits (R22). -/
  err : Err
  /-- 16 bits, two's complement tenths (R23). -/
  temp : BitVec 16
  /-- 16 bits, two's complement tenths (R23). -/
  hum : BitVec 16
  /-- 16 bits (R24): elapsed time of the current wait. -/
  E : BitVec 16
  /-- 16 bits (R25). -/
  lowDur : BitVec 16
  /-- 16 bits (R25). -/
  highDur : BitVec 16
  /-- 6 bits (R26): the bit index. -/
  i : BitVec 6
  /-- The RawFrame store, bytes 0 to 4 (R31). -/
  frame : Memory
  /-- 1 bit (R28). -/
  pinDir : PinDir
  /-- 1 bit (R28). -/
  pinOut : Level
  /-- MODEL'S OWN: what the outside does at the coming steps, first one first; after the last one only ticks (log entry 4). -/
  inputs : List Input
  /-- MODEL'S OWN: the levels of the coming GETLVLs, first one first; after the last one the level is a free draw (log entry 1). -/
  answers : List Level
  /-- MODEL'S OWN: how many GETLVLs have been answered; the argument of the free draw (log entry 1). -/
  draws : Nat
  /-- NOTIONAL (R46): the sum of the DELAY operands since the READ was accepted. Not a register of the block (R72). -/
  tBlk : Nat
  /-- NOTIONAL (R41, R122): the bus requests completed since the READ was accepted, latest first (log entry 5). -/
  trace : List BusEvent
  deriving DecidableEq, Repr

/-- Why the machine stops. -/
inductive Fault where
  /-- `fsm` holds a code 0x11 to 0x1F (R20, U8: "fault if fsm holds one"): raised by RESERVED_FSM and by every step but a reset in
  such a state. Safe: no run from reset gets there. -/
  | reservedFsm (code : BitVec 5)
  /-- `err = 11` was found: raised by a step in such a state, by REL_LVL and by the host's view of the result (R111, U7). Safe:
  no rule writes that code. -/
  | invalidArgument
  /-- A frame access outside bytes 0 to 4: raised by BIT_HIGH with `i` above 39, which R36 says cannot be formed. Safe: no run from
  reset gets there. -/
  | frameAddress (b : Nat)
  deriving DecidableEq, Repr

/-- Why an instruction has no meaning. -/
inductive Refusal where
  /-- An arm of exec without a meaning. Safe; no arm is left so. -/
  | notModelled (mnemonic : String)
  deriving DecidableEq, Repr

/-- The outcome of an instruction or a step. -/
abbrev Result := Host.Outcome State Fault Refusal

/-- The state right after reset, R124, at the default parameters. `variant` has no reset value in the spec: VariantA is the model's
(log entry 2). The model's own fields list nothing and count nothing. -/
def State.reset : State where
  cfg := Params.default
  fsm := 0x00#5
  smp := false
  variant := .variantA
  busy := false
  done := false
  err := .ok
  temp := 0#16
  hum := 0#16
  E := 0#16
  lowDur := 0#16
  highDur := 0#16
  i := 0#6
  frame := []
  pinDir := .outputOpenDrain
  pinOut := true
  inputs := []
  answers := []
  draws := 0
  tBlk := 0
  trace := []

end Sys2Proof.Machine
end

