-- ==== Sys2Proof/Machine/Ops.lean ====
section
/-! DEFINITION. The operations every meaning is written from: frame space, the four bus requests, the FSM's move, raising an error and
ending a read (the block's exception and its return), reset, and fetching the next operation. -/

namespace Sys2Proof.Machine

/-! ### Frame space (R31, R33, R36) -/

/-- The byte at address `b`: `MemRead(b, 1)` (R11); an unlisted address reads 0x00 (R33). -/
def Memory.read : Memory → Nat → Byte
  | [], _ => 0#8
  | (a, v) :: m, b => if a = b then v else Memory.read m b

/-- Writes byte `b`: `MemWrite(b, 1, v)` (R11). Writing 0x00 removes the pair, so that the canonical form is kept. -/
def Memory.write : Memory → Nat → Byte → Memory
  | [], b, v => if v = 0#8 then [] else [(b, v)]
  | (a, w) :: m, b, v =>
    if b < a then (if v = 0#8 then (a, w) :: m else (b, v) :: (a, w) :: m)
    else if a = b then (if v = 0#8 then m else (b, v) :: m)
    else (a, w) :: Memory.write m b v

/-- Every pair from address `lo` on: addresses strictly rising and below 5 (R31), no byte 0x00. -/
def Memory.wfFrom : Nat → Memory → Bool
  | _, [] => true
  | lo, (a, v) :: m => decide (lo ≤ a) && decide (a < 5) && decide (v ≠ 0#8) && Memory.wfFrom (a + 1) m

/-- The canonical form of frame space. -/
def Memory.wf (m : Memory) : Bool := Memory.wfFrom 0 m

/-- READ's clearing (R62: `for b in 0..4: MemWrite(b, 1, 0x00)`): every byte of frame space reads 0x00, so none is listed. -/
def Memory.cleared : Memory := []

/-! ### The FSM's move -/

/-- `fsm <- S` (R11), S given by its code (R55). -/
def State.goto (s : State) (code : BitVec 5) : State := { s with fsm := code }

/-- The transition into a poll state: `E <- 0; smp <- 0; fsm <- S` (R19, R24). -/
def State.enterPoll (s : State) (code : BitVec 5) : State := { s with E := 0#16, smp := false, fsm := code }

/-! ### Bus requests (R69 to R72): each completes within the step that issues it (R41) and is seen on the bus port -/

/-- A completed request, put on the bus port's record. -/
def State.record (s : State) (req : BitVec 34) (rsp : Option Level) : State := { s with trace := ⟨req, rsp⟩ :: s.trace }

/-- `Bus.SetDir(m); pinDir <- m` (R69). -/
def State.busSetDir (s : State) (m : PinDir) : State := { s.record (setdirWord m) none with pinDir := m }

/-- `Bus.SetLevel(v); pinOut <- v` (R70). -/
def State.busSetLevel (s : State) (v : Level) : State := { s.record (setlvlWord v) none with pinOut := v }

/-- The level the next GETLVL is answered with: any level (R47). -/
def State.lineLevel (s : State) : Level := s.answers.headD (Config.lineLevel s.draws)

/-- `Bus.GetLevel()` (R71): the answer is used up; the line and the registers are untouched. -/
def State.busGetLevel (s : State) : State :=
  { s.record getlvlWord (some s.lineLevel) with answers := s.answers.tail, draws := s.draws + 1 }

/-- `Bus.Delay(n); t_blk <- t_blk + n` (R72). -/
def State.busDelay (s : State) (n : BitVec 32) : State := { s.record (delayWord n) none with tBlk := s.tBlk + n.toNat }

/-! ### Errors and completion (R65, R101, R112) -/

/-- `finish()` (R65): the completion of every read, and the only return from an error (R115). -/
def State.finish (s : State) : State := { s with busy := false, done := true, fsm := 0x00#5 }

/-- The errors the block raises (R110). -/
inductive ReadError where
  | timeout
  | checksumMismatch
  deriving DecidableEq, Repr

/-- Raising an error: `raise Timeout` (R112) goes on to the bus release; `raise ChecksumMismatch` (R101) ends the read, the bus being
released already. Nothing else is saved (R112). -/
def State.raise (s : State) : ReadError → State
  | .timeout => { s with err := .timeout, fsm := 0x0D#5 }
  | .checksumMismatch => { s with err := .checksumMismatch }.finish

/-- A model that finds `err = 11` faults (R111, U7); otherwise `k`. -/
def guardErr (s : State) (k : Result) : Result :=
  match s.err with
  | .invalidArgument => .fault .invalidArgument
  | .ok | .timeout | .checksumMismatch => k

/-- A model that finds `fsm` at a reserved code faults (R20, U8); otherwise `k`. -/
def guardFsm (s : State) (k : Result) : Result := if s.fsm.toNat ≤ 0x10 then k else .fault (.reservedFsm s.fsm)

/-! ### The host's command (R62) -/

/-- What an accepted READ does: every register a read uses is initialised, and the read's time and bus record start anew (R46). -/
def State.acceptRead (s : State) (v : Variant) : State :=
  { s with
    variant := v, busy := true, done := false, err := .ok, temp := 0#16, hum := 0#16, frame := Memory.cleared,
    i := 0#6, E := 0#16, smp := false, lowDur := 0#16, highDur := 0#16, fsm := 0x01#5, tBlk := 0, trace := [] }

/-! ### Reset (R124, R126) -/

/-- A reset: every register takes its value of R124 and a read in progress leaves no result. The configuration and what the outside
does next are not the block's to reset. -/
def State.applyReset (s : State) : State :=
  { State.reset with cfg := s.cfg, inputs := s.inputs, answers := s.answers, draws := s.draws }

/-! ### The next operation (R12, R18, R62) -/

/-- What the next step runs: the CMD word the host presents, else the FSM state in `fsm`; none where reset is asserted. -/
def State.nextInstr (s : State) : Option Instr :=
  match s.inputs.headD .tick with
  | .tick => some (decodeFsm s.fsm)
  | .cmd w => some (decodeCmd w)
  | .reset => none

/-- The outside's part of a step is over. -/
def State.consume (s : State) : State := { s with inputs := s.inputs.tail }

/-- Makes the next step run the word `x`. An FSM code goes into `fsm`; a CMD word is presented at the host port. A bus request is
issued only by the FSM (R53 to R55), so the FSM is put into a state whose step issues it: INIT_DIR and B_DIR for SETDIR, INIT_LVL
and A_LOW for SETLVL, B_POLL about to sample for GETLVL, A_WAIT with `P_T_START = n` for DELAY n (log entry 8). -/
def State.placeWord (s : State) : Word → State
  | .fsm c => { s with fsm := c, inputs := .tick :: s.inputs }
  | .cmd w => { s with inputs := .cmd w :: s.inputs }
  | .bus w =>
    match decodeBus w with
    | .ok (.setdir .outputOpenDrain) => { s with fsm := 0x01#5, inputs := .tick :: s.inputs }
    | .ok (.setdir .input) => { s with fsm := 0x07#5, inputs := .tick :: s.inputs }
    | .ok (.setlvl true) => { s with fsm := 0x02#5, inputs := .tick :: s.inputs }
    | .ok (.setlvl false) => { s with fsm := 0x04#5, inputs := .tick :: s.inputs }
    | .ok .getlvl => { s with fsm := 0x08#5, smp := true, inputs := .tick :: s.inputs }
    | .ok (.delay n) => { s with fsm := 0x05#5, cfg := { s.cfg with pTStart := n }, inputs := .tick :: s.inputs }
    | _ => s

end Sys2Proof.Machine
end

