-- ==== Sys2Proof/Machine/Operands.lean ====
section
/-! DEFINITION. The operands of the FSM states: the pair of level and budget of each poll state (R56), the poll primitive (R73), the bit
decision and packing (R92, R94), the checksum (R100) and the two value decodings (R104, R105). -/

namespace Sys2Proof.Machine

/-- The poll parameters of a poll state (R56). -/
structure PollParams where
  expected : Level
  budget : BitVec 16
  deriving DecidableEq, Repr

/-- B_POLL: low, `P_B_ACK1`. -/
def bPollParams (p : Params) : PollParams := ⟨false, p.pBAck1⟩

/-- C_POLL: high, `P_B_ACK2`. -/
def cPollParams (p : Params) : PollParams := ⟨true, p.pBAck2⟩

/-- D_POLL: low, `P_B_ACK3`. -/
def dPollParams (p : Params) : PollParams := ⟨false, p.pBAck3⟩

/-- BIT_LOW: high, `P_B_LOW` (90_conflicts.md C2). -/
def bitLowParams (p : Params) : PollParams := ⟨true, p.pBLow⟩

/-- BIT_HIGH: low, `P_B_HIGH` (90_conflicts.md C2). -/
def bitHighParams (p : Params) : PollParams := ⟨false, p.pBHigh⟩

/-- POLL (R73), one step of it. `success` is the state's own continuation, run after the GETLVL; the measured duration is its `E`. -/
def poll (q : PollParams) (success : State → Result) (s : State) : Result :=
  if s.smp then
    if s.lineLevel = q.expected then success s.busGetLevel
    else .next { s.busGetLevel with E := s.E + s.cfg.pG, smp := false }
  else if q.budget ≤ s.E then .next (s.raise .timeout)
  else .next { s.busDelay (s.cfg.pG.zeroExtend 32) with smp := true }

/-- R92: 1 if the high phase is longer than the low phase, strictly, unsigned. -/
def decideBit (lowDur highDur : BitVec 16) : Bool := decide (lowDur < highDur)

/-- R91, R94: the byte with its bit `7 - m` replaced. -/
def packBit (old : Byte) (m : Nat) (bit : Bool) : Byte :=
  (old &&& ~~~(1#8 <<< (7 - m))) ||| ((bitOf bit).zeroExtend 8 <<< (7 - m))

/-- R100: the wrapping 8-bit sum of the four data bytes. -/
def checksum (m : Memory) : Byte := m.read 0 + m.read 1 + m.read 2 + m.read 3

/-- R104, VariantA: the byte, unsigned, times 10. -/
def decA (msb : Byte) : BitVec 16 := msb.zeroExtend 16 * 10#16

/-- R105, VariantB: a 15-bit magnitude, negated when bit 7 of the high byte is set. -/
def decB (msb lsb : Byte) : BitVec 16 :=
  let mag : BitVec 16 := (0#1 ++ msb.extractLsb' 0 7) ++ lsb
  if msb.extractLsb' 7 1 = 1#1 then -mag else mag

/-- R103: one field of the Reading, by variant. -/
def decodeField (v : Variant) (msb lsb : Byte) : BitVec 16 :=
  match v with
  | .variantA => decA msb
  | .variantB => decB msb lsb

end Sys2Proof.Machine
end

