-- ==== Sys2Proof/Machine/Flags.lean ====
section
/-! DEFINITION. What can be seen from outside: the STATUS word (R51), the result (R66), the exposed values (R108) and the pin (R28). -/

namespace Sys2Proof.Machine

/-- The 2-bit code of `err` (R51). -/
def errCode : Err → BitVec 2
  | .ok => 0#2
  | .timeout => 1#2
  | .checksumMismatch => 2#2
  | .invalidArgument => 3#2

/-- STATUS (R51): BUSY in bit 0, DONE in bit 1, ERR in bits 3:2, bits 7:4 read 0. -/
def State.statusWord (s : State) : BitVec 8 := 0#4 ++ errCode s.err ++ bitOf s.done ++ bitOf s.busy

/-- What the host's read of the result gives (R66). -/
inductive HostResult where
  | pending
  | ok (temperature humidity : BitVec 16)
  | errTimeout
  | errChecksumMismatch
  deriving DecidableEq, Repr

/-- `result()` (R66); ERR = 11 is a fault (R111). -/
def State.result (s : State) : Except Fault HostResult :=
  match s.done, s.err with
  | false, _ => .ok .pending
  | true, .ok => .ok (.ok s.temp s.hum)
  | true, .timeout => .ok .errTimeout
  | true, .checksumMismatch => .ok .errChecksumMismatch
  | true, .invalidArgument => .error .invalidArgument

/-- R108: the exact value of a RESULT word, tenths over 10. -/
def exactValue (t : BitVec 16) : ℚ := (t.toInt : ℚ) / 10

/-- R66, R108: the exposed values of an `Ok`, temperature then humidity, under a format the host chooses; none for any other result. -/
def State.exposed (F : Type) (f : ExposedFormat F) (s : State) : Option (F × F) :=
  match s.result with
  | .ok (.ok t h) => some (f.toFloat t, f.toFloat h)
  | _ => none

/-- What the block does to the line (R28). -/
inductive Drive where
  | pullsLow
  | releases
  | notDriving
  deriving DecidableEq, Repr

/-- R28: the pin driver's registers are what the block drives onto the pin. -/
def State.drive (s : State) : Drive :=
  match s.pinDir, s.pinOut with
  | .input, _ => .notDriving
  | .outputOpenDrain, false => .pullsLow
  | .outputOpenDrain, true => .releases

end Sys2Proof.Machine
end

