-- ==== Sys2Proof/Machine/BitSampling.lean ====
section
/-! DEFINITION. The bit loop: BIT_LOW and BIT_HIGH (43_bit_sampling.md). -/

namespace Sys2Proof.Machine

/-- BIT_LOW (R90): wait for high; the duration is `lowDur`. -/
def execBitLow (s : State) : Result :=
  poll (bitLowParams s.cfg) (fun t => .next ({ t with lowDur := t.E }.enterPoll 0x0C#5)) s

/-- The frame with bit `i` of the stream stored: byte `i / 8`, position `7 - i mod 8` (R34, R94). -/
def storeBit (m : Memory) (i : Nat) (bit : Bool) : Memory := m.write (i / 8) (packBit (m.read (i / 8)) (i % 8) bit)

/-- `success(BIT_HIGH, d)` (R91), `i` naming a bit of the frame: the duration, the bit, the index; the 40th bit ends the loop. -/
def afterBit (t : State) : State :=
  { t with
    highDur := t.E, frame := storeBit t.frame t.i.toNat (decideBit t.lowDur t.E), i := t.i + 1#6, E := 0#16, smp := false,
    fsm := if t.i + 1#6 = 40#6 then 0x0D#5 else 0x0B#5 }

/-- `success(BIT_HIGH, d)` (R91). A byte address above 4 does not exist (R31, R36). -/
def bitReceived (t : State) : Result :=
  if t.i.toNat / 8 < 5 then .next (afterBit t) else .fault (.frameAddress (t.i.toNat / 8))

/-- BIT_HIGH (R91): wait for low, then decide and store the bit. -/
def execBitHigh (s : State) : Result := poll (bitHighParams s.cfg) bitReceived s

end Sys2Proof.Machine
end

