-- ==== Sys2Proof/Machine/Bus.lean ====
section
/-! DEFINITION. The bus requests: SETDIR, SETLVL, GETLVL, DELAY (41_bus_operations.md). The FSM states issue them through the same
operations. -/

namespace Sys2Proof.Machine

/-- SETDIR (R69). -/
def execSetdir (m : PinDir) (s : State) : Result := .next (s.busSetDir m)

/-- SETLVL (R70). -/
def execSetlvl (v : Level) (s : State) : Result := .next (s.busSetLevel v)

/-- GETLVL (R71): the level is "not stored in any register". -/
def execGetlvl (s : State) : Result := .next s.busGetLevel

/-- DELAY (R72). -/
def execDelay (n : BitVec 32) (s : State) : Result := .next (s.busDelay n)

end Sys2Proof.Machine
end

