-- ==== Sys2Proof/Machine/Handshake.lean ====
section
/-! DEFINITION. The handshake states IDLE to D_POLL (42_handshake.md). -/

namespace Sys2Proof.Machine

/-- IDLE (R78): no bus request; `fsm <- IDLE`. -/
def execIdle (s : State) : Result := .next (s.goto 0x00#5)

/-- INIT_DIR (R79). -/
def execInitDir (s : State) : Result := .next ((s.busSetDir .outputOpenDrain).goto 0x02#5)

/-- INIT_LVL (R80). -/
def execInitLvl (s : State) : Result := .next ((s.busSetLevel true).goto 0x03#5)

/-- A_DIR (R81). -/
def execADir (s : State) : Result := .next ((s.busSetDir .outputOpenDrain).goto 0x04#5)

/-- A_LOW (R82). -/
def execALow (s : State) : Result := .next ((s.busSetLevel false).goto 0x05#5)

/-- A_WAIT (R83): no budget, no sample. -/
def execAWait (s : State) : Result := .next ((s.busDelay s.cfg.pTStart).goto 0x06#5)

/-- A_REL (R84). -/
def execARel (s : State) : Result := .next ((s.busSetLevel true).goto 0x07#5)

/-- B_DIR (R85). -/
def execBDir (s : State) : Result := .next ((s.busSetDir .input).enterPoll 0x08#5)

/-- B_POLL (R86): wait for low; the duration is discarded. -/
def execBPoll (s : State) : Result := poll (bPollParams s.cfg) (fun t => .next (t.enterPoll 0x09#5)) s

/-- C_POLL (R87): wait for high; the duration is discarded. -/
def execCPoll (s : State) : Result := poll (cPollParams s.cfg) (fun t => .next (t.enterPoll 0x0A#5)) s

/-- D_POLL (R88): wait for low; the duration is discarded. -/
def execDPoll (s : State) : Result := poll (dPollParams s.cfg) (fun t => .next (t.enterPoll 0x0B#5)) s

end Sys2Proof.Machine
end

