-- ==== Sys2Proof/Machine/HostCommand.lean ====
section
/-! DEFINITION. The host's command words: READ, NOCMD, RESERVED_CMD (40_host_command.md, R50). -/

namespace Sys2Proof.Machine

/-- READ (R62): taken only in IDLE; elsewhere it has no effect (R63). -/
def execRead (v : Variant) (s : State) : Result :=
  if s.fsm = 0x00#5 then .next (s.acceptRead v) else .next s

/-- NOCMD (R50): "It has no effect in any state". -/
def execNocmd (_ignored : BitVec 7) (s : State) : Result := .next s

/-- RESERVED_CMD (R50): "The block ignores it: no register changes" (log entry 6). -/
def execReservedCmd (_var : Variant) (_reserved : BitVec 6) (s : State) : Result := .next s

end Sys2Proof.Machine
end

