-- ==== Sys2Proof/Machine/Release.lean ====
section
/-! DEFINITION. The bus release and the checksum validator: REL_DIR, REL_LVL, VALIDATE (44_release_and_checksum.md). -/

namespace Sys2Proof.Machine

/-- REL_DIR (R98). -/
def execRelDir (s : State) : Result := .next ((s.busSetDir .outputOpenDrain).goto 0x0E#5)

/-- REL_LVL (R99): finish after a timeout, else validate. It reads `err`, so `err = 11` faults here (R111). -/
def execRelLvl (s : State) : Result :=
  let t := s.busSetLevel true
  guardErr t (.next (if t.err = .ok then t.goto 0x0F#5 else t.finish))

/-- VALIDATE (R100, R101). -/
def execValidate (s : State) : Result :=
  .next (if checksum s.frame = s.frame.read 4 then s.goto 0x10#5 else s.raise .checksumMismatch)

end Sys2Proof.Machine
end

