-- ==== Sys2Proof/Machine/ReservedState.lean ====
section
/-! DEFINITION. The reserved FSM codes (R20, R55, U8). -/

namespace Sys2Proof.Machine

/-- RESERVED_FSM (R20): "A model that finds `fsm` at a reserved code faults". -/
def execReservedFsm (code : BitVec 5) (_s : State) : Result := .fault (.reservedFsm code)

end Sys2Proof.Machine
end

