-- ==== Sys2Proof/Machine/ValueDecoding.lean ====
section
/-! DEFINITION. The variant decoder: DECODE (45_decode.md). -/

namespace Sys2Proof.Machine

/-- DECODE (R103): temperature from bytes 2 and 3, humidity from bytes 0 and 1, then `finish()`. -/
def execDecode (s : State) : Result :=
  .next
    { s with
      temp := decodeField s.variant (s.frame.read 2) (s.frame.read 3)
      hum := decodeField s.variant (s.frame.read 0) (s.frame.read 1) }.finish

end Sys2Proof.Machine
end

