-- ==== Sys2Proof/Machine/Dispatch.lean ====
section
/-! DEFINITION. One arm per operation of the opcode table. -/

namespace Sys2Proof.Machine

def exec (i : Instr) (s : State) : Host.Outcome State Fault Refusal :=
  match i with
  | .read variant => Sys2Proof.Machine.execRead variant s
  | .nocmd ignored => Sys2Proof.Machine.execNocmd ignored s
  | .reservedCmd var reserved => Sys2Proof.Machine.execReservedCmd var reserved s
  | .setdir mode => Sys2Proof.Machine.execSetdir mode s
  | .setlvl level => Sys2Proof.Machine.execSetlvl level s
  | .getlvl => Sys2Proof.Machine.execGetlvl s
  | .delay n => Sys2Proof.Machine.execDelay n s
  | .idle => Sys2Proof.Machine.execIdle s
  | .initDir => Sys2Proof.Machine.execInitDir s
  | .initLvl => Sys2Proof.Machine.execInitLvl s
  | .aDir => Sys2Proof.Machine.execADir s
  | .aLow => Sys2Proof.Machine.execALow s
  | .aWait => Sys2Proof.Machine.execAWait s
  | .aRel => Sys2Proof.Machine.execARel s
  | .bDir => Sys2Proof.Machine.execBDir s
  | .bPoll => Sys2Proof.Machine.execBPoll s
  | .cPoll => Sys2Proof.Machine.execCPoll s
  | .dPoll => Sys2Proof.Machine.execDPoll s
  | .bitLow => Sys2Proof.Machine.execBitLow s
  | .bitHigh => Sys2Proof.Machine.execBitHigh s
  | .relDir => Sys2Proof.Machine.execRelDir s
  | .relLvl => Sys2Proof.Machine.execRelLvl s
  | .validate => Sys2Proof.Machine.execValidate s
  | .decode => Sys2Proof.Machine.execDecode s
  | .reservedFsm code => Sys2Proof.Machine.execReservedFsm code s

end Sys2Proof.Machine
end

