-- ==== Sys2Proof/Machine/Step.lean ====
section
/-! DEFINITION. One step of the machine (R12): the outside's input of this step, if any, else the FSM state in `fsm`. -/

namespace Sys2Proof.Machine

/-- One step: a reset (R126), a CMD word (R62) or one firing of the FSM (R12). A state with `err = 11`
(U7) or a reserved code in `fsm` (R20, U8) faults, whatever is presented, but for a reset (R114). -/
def step (s : State) : Host.Outcome State Fault Refusal :=
  match s.nextInstr with
  | none => .next s.consume.applyReset
  | some i => guardErr s (guardFsm s (exec i s.consume))

/-- `s` with the instruction of the host's numbering placed where step takes its next one from (log entry 8). -/
def State.withFetchWord (s : State) (nbits w : Nat) : State :=
  match tableWord nbits w with
  | none => s
  | some x => s.placeWord x

end Sys2Proof.Machine
end

