-- ==== Sys2Proof/Safety.lean ====
section
/-! DEFINITION. What claims are stated in: the invariants of a run, the poll count of a wait, and the host's duties. -/

namespace Sys2Proof.Machine

/-- The five poll states (R19): codes 0x08 to 0x0C. -/
def isPoll (c : BitVec 5) : Bool := decide (0x08 ≤ c.toNat ∧ c.toNat ≤ 0x0C)

/-- The poll parameters by state code (R56); the value at another code is never used. -/
def pollParamsAt (p : Params) (c : BitVec 5) : PollParams :=
  match c.toNat with
  | 0x08 => bPollParams p
  | 0x09 => cPollParams p
  | 0x0A => dPollParams p
  | 0x0B => bitLowParams p
  | _ => bitHighParams p

/-- `K(B)`, the number of polls a wait of budget B can make: B / P_G, rounded up (R75). -/
def pollCount (p : Params) (budget : BitVec 16) : Nat := (budget.toNat + p.pG.toNat - 1) / p.pG.toNat

/-- The longest a wait of budget B lasts, in the block's own delays (R75). -/
def waitTime (p : Params) (budget : BitVec 16) : Nat := pollCount p budget * p.pG.toNat

/-- Stream bit `j` of the frame: byte `j / 8`, position `7 - j mod 8` (R34). -/
def streamBit (m : Memory) (j : Nat) : Bool := (m.read (j / 8)).getLsbD (7 - j % 8)

/-- The checksum relation of a frame (R100, R102). -/
def checksumHolds (m : Memory) : Prop :=
  (m.read 4).toNat = ((m.read 0).toNat + (m.read 1).toNat + (m.read 2).toNat + (m.read 3).toNat) % 256

/-- R19, R20: `fsm` is a legal code, and `smp` is 0 outside the poll states. -/
structure FsmInv (s : State) : Prop where
  legal : s.fsm.toNat ≤ 0x10
  smpOnlyInPoll : s.smp = true → isPoll s.fsm = true

/-- R22, R65, R111, R112, R114: `busy` says a read is in progress, `busy` and `done` exclude each other, code 11 is never held, an
error is held only on the release path or after the read, and a mismatch only after the read. -/
structure StatusInv (s : State) : Prop where
  busyOutsideIdle : s.busy = true ↔ s.fsm ≠ 0x00#5
  notBoth : s.busy = true → s.done = false
  errNeverInvalid : s.err ≠ .invalidArgument
  okUntilRelease : s.fsm ≠ 0x00#5 → s.fsm ≠ 0x0D#5 → s.fsm ≠ 0x0E#5 → s.err = .ok
  mismatchOnlyIdle : s.err = .checksumMismatch → s.fsm = 0x00#5

/-- The pin driver is a function of the FSM state: Input exactly from the end of B_DIR to REL_DIR, low exactly from the end of A_LOW
to A_REL (R29, R70, R71, R82, R85). -/
structure PinInv (s : State) : Prop where
  dir : s.pinDir = if 0x08 ≤ s.fsm.toNat ∧ s.fsm.toNat ≤ 0x0D then .input else .outputOpenDrain
  out : s.pinOut = if s.fsm = 0x05#5 ∨ s.fsm = 0x06#5 then false else true

/-- R24, R26, R73: in a wait, `E` is a number of whole polls that the budget admits; `i` is 0 until the bit loop, at most 39 in it,
and 40 after it unless the read timed out. -/
structure SamplerInv (s : State) : Prop where
  cfgLegal : s.cfg.legal = true
  wholePolls : isPoll s.fsm = true → s.cfg.pG.toNat ∣ s.E.toNat
  elapsedBound : isPoll s.fsm = true → s.E.toNat + 1 ≤ (pollParamsAt s.cfg s.fsm).budget.toNat + s.cfg.pG.toNat
  sampleInBudget : isPoll s.fsm = true → s.smp = true → s.E.toNat < (pollParamsAt s.cfg s.fsm).budget.toNat
  indexBound : s.i.toNat ≤ 40
  indexBeforeLoop : 0x01 ≤ s.fsm.toNat → s.fsm.toNat ≤ 0x0A → s.i = 0#6
  indexInLoop : s.fsm = 0x0B#5 ∨ s.fsm = 0x0C#5 → s.i.toNat ≤ 39
  indexAfterLoop : 0x0D ≤ s.fsm.toNat → s.err = .ok → s.i = 40#6

/-- R33, R94, R95: frame space keeps its canonical form, and a bit not received yet is 0 from READ to the end of the loop. -/
structure FrameInv (s : State) : Prop where
  wf : s.frame.wf = true
  unreceivedZero : 0x01 ≤ s.fsm.toNat → s.fsm.toNat ≤ 0x0C → ∀ j, s.i.toNat ≤ j → j < 40 → streamBit s.frame j = false

/-- R23, R66, R101, R102, R103, R107: TEMP and HUM read 0 unless the read ended `Ok`; then the frame has its checksum and they are the
frame decoded. A read that ended in a mismatch has a frame without its checksum. -/
structure ResultInv (s : State) : Prop where
  zeroUnlessOk : ¬(s.done = true ∧ s.err = .ok) → s.temp = 0#16 ∧ s.hum = 0#16
  okChecksum : s.done = true → s.err = .ok → checksumHolds s.frame
  okValues : s.done = true → s.err = .ok →
    s.temp = decodeField s.variant (s.frame.read 2) (s.frame.read 3) ∧ s.hum = decodeField s.variant (s.frame.read 0) (s.frame.read 1)
  mismatchChecksum : s.err = .checksumMismatch → ¬checksumHolds s.frame
  decodeChecked : s.fsm = 0x10#5 → checksumHolds s.frame

/-- The latest `t_blk` at which a read of this configuration enters the FSM state with bit index `i` (R89, R97, R135). -/
def latestEntry (p : Params) (c : BitVec 5) (i : Nat) : Nat :=
  let bits := waitTime p p.pBLow + waitTime p p.pBHigh
  let acks := waitTime p p.pBAck1 + waitTime p p.pBAck2 + waitTime p p.pBAck3
  match c.toNat with
  | 0x01 => 0
  | 0x02 => 0
  | 0x03 => 0
  | 0x04 => 0
  | 0x05 => 0
  | 0x06 => p.pTStart.toNat
  | 0x07 => p.pTStart.toNat
  | 0x08 => p.pTStart.toNat
  | 0x09 => p.pTStart.toNat + waitTime p p.pBAck1
  | 0x0A => p.pTStart.toNat + waitTime p p.pBAck1 + waitTime p p.pBAck2
  | 0x0B => p.pTStart.toNat + acks + i * bits
  | 0x0C => p.pTStart.toNat + acks + i * bits + waitTime p p.pBLow
  | _ => p.pTStart.toNat + acks + 40 * bits

/-- The part of the current wait already delayed: its finished polls and the delay of the poll in progress (R73). -/
def waitSoFar (s : State) : Nat :=
  if isPoll s.fsm then s.E.toNat + (if s.smp then s.cfg.pG.toNat else 0) else 0

/-- R135: `t_blk` never passes the latest time of the FSM state. -/
def TimeInv (s : State) : Prop := s.tBlk ≤ latestEntry s.cfg s.fsm s.i.toNat + waitSoFar s

/-- How many requests a read has issued before its waits: by state code up to B_DIR (R55, R89). -/
def fixedRequests (c : BitVec 5) : Nat :=
  match c.toNat with
  | 0x01 => 0
  | 0x02 => 1
  | 0x03 => 2
  | 0x04 => 3
  | 0x05 => 4
  | 0x06 => 5
  | 0x07 => 6
  | 0x0E => 8
  | 0x0F => 9
  | 0x10 => 9
  | _ => 7

/-- R75, R89, R97: past the start pulse every request but the fixed ones is half of a poll, so requests and time count each other:
two requests for each `P_G` of delay (one for the delay of a poll in progress). -/
def RequestInv (s : State) : Prop :=
  (0x01 ≤ s.fsm.toNat → s.fsm.toNat ≤ 0x07 → s.trace.length = fixedRequests s.fsm) ∧
  (0x06 ≤ s.fsm.toNat → s.fsm.toNat ≤ 0x07 → s.tBlk = s.cfg.pTStart.toNat) ∧
  (0x08 ≤ s.fsm.toNat → s.fsm.toNat ≤ 0x10 → s.cfg.pTStart.toNat ≤ s.tBlk ∧
    s.cfg.pG.toNat * (s.trace.length + (if s.smp then 1 else 0)) =
      s.cfg.pG.toNat * fixedRequests s.fsm + 2 * (s.tBlk - s.cfg.pTStart.toNat)) ∧
  (s.fsm = 0x00#5 → s.done = true → s.cfg.pTStart.toNat ≤ s.tBlk ∧
    s.cfg.pG.toNat * s.trace.length = s.cfg.pG.toNat * 9 + 2 * (s.tBlk - s.cfg.pTStart.toNat))

/-- All of the invariants of a run. -/
structure Inv (s : State) : Prop where
  fsm : FsmInv s
  status : StatusInv s
  pin : PinInv s
  sampler : SamplerInv s
  frame : FrameInv s
  result : ResultInv s
  time : TimeInv s
  request : RequestInv s

/-- The levels a wait for `e` that succeeds at poll `k` samples (R75): `k - 1` times the other level, then `e`. -/
def waitLevels (e : Level) (k : Nat) : List Level := List.replicate (k - 1) (!e) ++ [e]

/-- The requests of the polls that sample `levels` (R73), latest first: `DELAY P_G` and `GETLVL` for each. -/
def pollEvents (p : Params) (levels : List Level) : List BusEvent :=
  levels.reverse.flatMap fun v => [⟨getlvlWord, some v⟩, ⟨delayWord (p.pG.zeroExtend 32), none⟩]

/-- `s` after the polls that sample `levels`, by time, answers and bus record. -/
def afterPolls (s : State) (levels rest : List Level) : State :=
  { s with
    answers := rest, draws := s.draws + levels.length, tBlk := s.tBlk + levels.length * s.cfg.pG.toNat,
    trace := pollEvents s.cfg levels ++ s.trace }

/-- The continuation of each poll state, applied to the state after the matching sample (R86 to R88, R90, R91). -/
def afterWait (s : State) : State :=
  match s.fsm.toNat with
  | 0x08 => s.enterPoll 0x09#5
  | 0x09 => s.enterPoll 0x0A#5
  | 0x0A => s.enterPoll 0x0B#5
  | 0x0B => { s with lowDur := s.E }.enterPoll 0x0C#5
  | _ => afterBit s

/-- A wait is about to begin in `s`: the poll state is just entered, nothing comes from the outside, and `i` names a bit. -/
structure WaitBegins (s : State) : Prop where
  legal : s.cfg.legal = true
  poll : isPoll s.fsm = true
  errNeverInvalid : s.err ≠ .invalidArgument
  quiet : s.inputs = []
  smp : s.smp = false
  elapsed : s.E = 0#16
  index : s.i.toNat ≤ 39

/-- Poll numbers at which the two waits of a bit succeed (R61, `BIT kl, kh`), within their budgets. -/
def bitPolls (p : Params) (kl kh : Nat) : Prop :=
  1 ≤ kl ∧ kl ≤ pollCount p p.pBLow ∧ 1 ≤ kh ∧ kh ≤ pollCount p p.pBHigh

/-- The levels sampled in the bit `BIT kl, kh`. -/
def bitLevels (kl kh : Nat) : List Level := waitLevels true kl ++ waitLevels false kh

/-- The levels sampled in a stream of bits. -/
def streamLevels (ks : List (Nat × Nat)) : List Level := ks.flatMap fun k => bitLevels k.1 k.2

/-- The number of polls of a stream of bits (R97). -/
def streamPolls (ks : List (Nat × Nat)) : Nat := (ks.map fun k => k.1 + k.2).sum

/-- Poll numbers at which the three acknowledgment waits succeed, within their budgets (R89). -/
def ackPolls (p : Params) (kB kC kD : Nat) : Prop :=
  1 ≤ kB ∧ kB ≤ pollCount p p.pBAck1 ∧ 1 ≤ kC ∧ kC ≤ pollCount p p.pBAck2 ∧ 1 ≤ kD ∧ kD ≤ pollCount p p.pBAck3

/-- The levels sampled in the handshake (R89). -/
def ackLevels (kB kC kD : Nat) : List Level := waitLevels false kB ++ (waitLevels true kC ++ waitLevels false kD)

/-- The most steps a read takes from INIT_DIR on: every wait at its last poll, and all of release, VALIDATE and DECODE (R137). -/
def readSteps (p : Params) : Nat :=
  7 + 2 * (pollCount p p.pBAck1 + pollCount p p.pBAck2 + pollCount p p.pBAck3)
    + 80 * (pollCount p p.pBLow + pollCount p p.pBHigh) + 4

/-- The step of a poll state in R73's own words, with the request words of R53: expected level `e`, budget `B`, continuation `k`. -/
def pollByRule (e : Level) (B : BitVec 16) (k : State → State) (s : State) : State :=
  let v := s.answers.headD (Config.lineLevel s.draws)
  let sampled : State :=
    { s with answers := s.answers.tail, draws := s.draws + 1, trace := ⟨0x200000000#34, some v⟩ :: s.trace }
  if s.smp = false then
    if B.toNat ≤ s.E.toNat then { s with err := .timeout, fsm := 0x0D#5 }
    else
      { s with
        smp := true, tBlk := s.tBlk + s.cfg.pG.toNat, trace := ⟨0x300000000#34 + s.cfg.pG.zeroExtend 34, none⟩ :: s.trace }
  else if v = e then k sampled
  else { sampled with E := s.E + s.cfg.pG, smp := false }

/-- The host's duty of R50 and R68: reserved bits of a CMD word are 0. A host that keeps it never presents RESERVED_CMD, the word a
model has no move for (R50, U9). -/
def Input.hostLegal : Input → Bool
  | .tick | .reset => true
  | .cmd w => decide (w.extractLsb' 0 1 = 0#1) || decide (w.extractLsb' 2 6 = 0#6)

/-- An outcome with its next state changed by `f`. -/
def mapNext (f : State → State) : Result → Result
  | .next s => .next (f s)
  | .fault r => .fault r
  | .refused r => .refused r

end Sys2Proof.Machine
end

