-- ==== Sys2Proof/Certificates/Slice0/Obligations.lean ====
section
/-! DEFINITION. The statements for the provers, from the numbered rules of spec/. Result statements write the request words (R53) and
the state codes (R55) as numbers of the spec, not by the model's names. -/

open Sys2Proof Sys2Proof.Machine

/-! ### Encodings -/

/-- R49, R53, R55: words written out from the encoding tables stand for the operations they should. -/
def Obligations.WordsOfTheEncodingTables : Prop :=
  decode (.cmd 0x01#8) = .ok (.read .variantA) ∧ decode (.cmd 0x03#8) = .ok (.read .variantB) ∧
  decode (.cmd 0x80#8) = .ok (.nocmd 0x40#7) ∧ decode (.cmd 0x07#8) = .ok (.reservedCmd .variantB 1#6) ∧
  decode (.bus 0x000000001#34) = .ok (.setdir .outputOpenDrain) ∧ decode (.bus 0x000000000#34) = .ok (.setdir .input) ∧
  decode (.bus 0x100000000#34) = .ok (.setlvl false) ∧ decode (.bus 0x100000001#34) = .ok (.setlvl true) ∧
  decode (.bus 0x200000000#34) = .ok .getlvl ∧ decode (.bus 0x300004E20#34) = .ok (.delay 20000#32) ∧
  decode (.bus 0x000000002#34) = .error .setdirArg ∧ decode (.bus 0x200000001#34) = .error .getlvlArg ∧
  decode (.fsm 0x0C#5) = .ok .bitHigh ∧ decode (.fsm 0x10#5) = .ok .decode ∧ decode (.fsm 0x11#5) = .ok (.reservedFsm 0x11#5)

/-- R49, R53, R55: no bit of an encoding is lost, for every operation and every operand it admits. -/
def Obligations.DecodeAfterEncode : Prop := ∀ x : Instr, x.wf = true → decode (encode x) = .ok x

/-- R49, R53, R55: every word that decodes is the word of the operation it decodes to, and that operation is well formed. -/
def Obligations.EncodeAfterDecode : Prop := ∀ (w : Word) (x : Instr), decode w = .ok x → encode x = w ∧ x.wf = true

/-! ### Step, reset, stops -/

/-- R12, R18, R62 (the model's inputs: log entry 4; err = 11: log entry 9; reserved codes: log entry 12): with err not 11, a step is
exec of the FSM state in `fsm` where the outside does nothing, and of the CMD word where the host presents one and `fsm` is legal (a
reserved code faults whatever is presented: ReservedCodesFault); the outside's input is used up, and step adds nothing else. -/
def Obligations.StepRunsTheNextOperation : Prop :=
  ∀ s : State, s.err ≠ .invalidArgument →
    (s.inputs = [] → step s = exec (decodeFsm s.fsm) s) ∧
    (∀ r, s.inputs = .tick :: r → step s = exec (decodeFsm s.fsm) { s with inputs := r }) ∧
    (∀ w r, s.fsm.toNat ≤ 0x10 → s.inputs = .cmd w :: r → step s = exec (decodeCmd w) { s with inputs := r })

/-- R124, but for `variant`, to which the spec gives no reset value (log entry 2): what reset leaves. -/
def Obligations.ResetLeavesTheValuesOfTheTable : Prop :=
  State.reset.fsm = 0x00#5 ∧ State.reset.smp = false ∧ State.reset.busy = false ∧ State.reset.done = false ∧
  State.reset.err = .ok ∧ State.reset.temp = 0#16 ∧ State.reset.hum = 0#16 ∧ State.reset.E = 0#16 ∧
  State.reset.lowDur = 0#16 ∧ State.reset.highDur = 0#16 ∧ State.reset.i = 0#6 ∧
  (∀ b, State.reset.frame.read b = 0#8) ∧ State.reset.pinDir = .outputOpenDrain ∧ State.reset.pinOut = true ∧
  State.reset.statusWord = 0x00#8 ∧ State.reset.result = .ok .pending ∧ State.reset.drive = .releases

/-- R126 (log entries 4 and 11): a reset, in whatever state it comes, leaves every register (but `variant`, log entry 2) at its reset value with no result
reported and the pin released. -/
def Obligations.ResetAbandonsAnyRead : Prop :=
  ∀ (s : State) (r : List Input), s.inputs = .reset :: r →
    ∃ t, step s = .next t ∧ t.fsm = 0x00#5 ∧ t.smp = false ∧ t.busy = false ∧ t.done = false ∧ t.err = .ok ∧
      t.temp = 0#16 ∧ t.hum = 0#16 ∧ t.E = 0#16 ∧ t.lowDur = 0#16 ∧ t.highDur = 0#16 ∧ t.i = 0#6 ∧
      (∀ b, t.frame.read b = 0#8) ∧ t.pinDir = .outputOpenDrain ∧ t.pinOut = true ∧ t.result = .ok .pending ∧
      t.drive = .releases ∧ t.cfg = s.cfg ∧ t.inputs = r ∧ t.answers = s.answers

/-- R20, U8 (log entry 12): RESERVED_FSM stops in every state, so does every step but a reset that finds a code 0x11 to 0x1F in `fsm`,
a step that is given a CMD word included. -/
def Obligations.ReservedCodesFault : Prop :=
  (∀ (c : BitVec 5) (s : State), exec (.reservedFsm c) s = .fault (.reservedFsm c)) ∧
  (∀ s : State, s.err ≠ .invalidArgument → 0x11 ≤ s.fsm.toNat → (∀ r, s.inputs ≠ .reset :: r) →
    step s = .fault (.reservedFsm s.fsm))

/-- R111, U7 (log entry 9): err = 11 faults wherever it is found: in any step but a reset, in REL_LVL, and in the host's view of a finished read. -/
def Obligations.InvalidErrorCodeFaults : Prop :=
  ∀ s : State, s.err = .invalidArgument →
    ((∀ r, s.inputs ≠ .reset :: r) → step s = .fault .invalidArgument) ∧
    exec .relLvl s = .fault .invalidArgument ∧
    (s.done = true → s.result = .error .invalidArgument)

/-! ### The host's command words -/

/-- R62, R63: READ in IDLE starts a read with every register of it initialised and no other register changed; elsewhere it does
nothing. The notional time starts at 0 (R46), and the bus record starts anew, which is the model's choice (log entry 5). `READ A` is
the word 0x01 and `READ B` the word 0x03. -/
def Obligations.ReadStartsOneReadFromIdle : Prop :=
  decodeCmd 0x01#8 = .read .variantA ∧ decodeCmd 0x03#8 = .read .variantB ∧
  ∀ (v : Variant) (s : State), exec (.read v) s = .next
    (if s.fsm = 0x00#5 then
      { s with
        variant := v, busy := true, done := false, err := .ok, temp := 0#16, hum := 0#16, frame := [], i := 0#6, E := 0#16,
        smp := false, lowDur := 0#16, highDur := 0#16, fsm := 0x01#5, tBlk := 0, trace := [] }
    else s)

/-- R50 (the block's rule; that a model refuses reserved words is answered by log entry 6): NOCMD and RESERVED_CMD change nothing in
any state, and a step that is given such a CMD word, with `fsm` legal, only uses the word up (the model's inputs: log entry 4). -/
def Obligations.OtherCommandWordsChangeNothing : Prop :=
  (∀ (x : BitVec 7) (s : State), exec (.nocmd x) s = .next s) ∧
  (∀ (v : Variant) (r : BitVec 6) (s : State), exec (.reservedCmd v r) s = .next s) ∧
  (∀ (s : State) (w : BitVec 8) (r : List Input), s.err ≠ .invalidArgument → s.fsm.toNat ≤ 0x10 → s.inputs = .cmd w :: r →
    (w.getLsbD 0 = false ∨ 4 ≤ w.toNat) → step s = .next { s with inputs := r })

/-- R63 (the model's inputs: log entry 4): a READ word presented while a read is in progress changes no register. So does any other
CMD word: a word with GO = 0 by R50, and a reserved word by the model's choice to ignore it where R50 says a model refuses it (log
entry 6). At a reserved code the step faults instead (ReservedCodesFault). -/
def Obligations.ReadWhileBusyIsLost : Prop :=
  ∀ (s : State) (w : BitVec 8) (r : List Input), s.err ≠ .invalidArgument → s.fsm ≠ 0x00#5 → s.fsm.toNat ≤ 0x10 →
    s.inputs = .cmd w :: r → step s = .next { s with inputs := r }

/-! ### Bus requests -/

/-- R69 to R72: each bus request completes: its word goes out, SETDIR writes `pinDir`, SETLVL writes `pinOut`, DELAY n adds n to the
block's time, GETLVL takes one level, whatever it is, and stores it in no register; nothing else changes. -/
def Obligations.BusRequestsDoOnlyTheirEffect : Prop :=
  ∀ s : State,
    exec (.setdir .input) s = .next { s with pinDir := .input, trace := ⟨0x000000000#34, none⟩ :: s.trace } ∧
    exec (.setdir .outputOpenDrain) s = .next { s with pinDir := .outputOpenDrain, trace := ⟨0x000000001#34, none⟩ :: s.trace } ∧
    exec (.setlvl false) s = .next { s with pinOut := false, trace := ⟨0x100000000#34, none⟩ :: s.trace } ∧
    exec (.setlvl true) s = .next { s with pinOut := true, trace := ⟨0x100000001#34, none⟩ :: s.trace } ∧
    exec .getlvl s = .next
      { s with
        answers := s.answers.tail, draws := s.draws + 1
        trace := ⟨0x200000000#34, some (s.answers.headD (Config.lineLevel s.draws))⟩ :: s.trace } ∧
    ∀ n : BitVec 32, exec (.delay n) s = .next
      { s with tBlk := s.tBlk + n.toNat, trace := ⟨0x300000000#34 + n.zeroExtend 34, none⟩ :: s.trace }

/-! ### Handshake -/

/-- R78 to R85: IDLE rests; INIT_DIR to B_DIR each issue their one request, write their pin register and go to their successor; A_WAIT
delays `P_T_START`; B_DIR begins the first wait. Nothing else changes. -/
def Obligations.StartPulseStates : Prop :=
  ∀ s : State,
    exec .idle s = .next { s with fsm := 0x00#5 } ∧
    exec .initDir s = .next { s with pinDir := .outputOpenDrain, fsm := 0x02#5, trace := ⟨0x000000001#34, none⟩ :: s.trace } ∧
    exec .initLvl s = .next { s with pinOut := true, fsm := 0x03#5, trace := ⟨0x100000001#34, none⟩ :: s.trace } ∧
    exec .aDir s = .next { s with pinDir := .outputOpenDrain, fsm := 0x04#5, trace := ⟨0x000000001#34, none⟩ :: s.trace } ∧
    exec .aLow s = .next { s with pinOut := false, fsm := 0x05#5, trace := ⟨0x100000000#34, none⟩ :: s.trace } ∧
    exec .aWait s = .next
      { s with
        tBlk := s.tBlk + s.cfg.pTStart.toNat, fsm := 0x06#5
        trace := ⟨0x300000000#34 + s.cfg.pTStart.zeroExtend 34, none⟩ :: s.trace } ∧
    exec .aRel s = .next { s with pinOut := true, fsm := 0x07#5, trace := ⟨0x100000001#34, none⟩ :: s.trace } ∧
    exec .bDir s = .next
      { s with pinDir := .input, E := 0#16, smp := false, fsm := 0x08#5, trace := ⟨0x000000000#34, none⟩ :: s.trace }

/-- R86 to R88 (with R73, R112): one step of B_POLL, C_POLL and D_POLL, for every level the line may show. -/
def Obligations.AcknowledgmentPolls : Prop :=
  ∀ s : State,
    exec .bPoll s = .next (pollByRule false s.cfg.pBAck1 (fun u => { u with E := 0#16, smp := false, fsm := 0x09#5 }) s) ∧
    exec .cPoll s = .next (pollByRule true s.cfg.pBAck2 (fun u => { u with E := 0#16, smp := false, fsm := 0x0A#5 }) s) ∧
    exec .dPoll s = .next (pollByRule false s.cfg.pBAck3 (fun u => { u with E := 0#16, smp := false, fsm := 0x0B#5 }) s)

/-! ### Bit sampling -/

/-- R90: one step of BIT_LOW; on success the elapsed time is the low phase's duration. -/
def Obligations.BitLowMeasuresTheLowPhase : Prop :=
  ∀ s : State, exec .bitLow s = .next
    (pollByRule true s.cfg.pBLow (fun u => { u with lowDur := s.E, E := 0#16, smp := false, fsm := 0x0C#5 }) s)

/-- R91, R92, R94: one step of BIT_HIGH with `i` at most 39. It writes the frame only on success, and there it stores bit `i` of the
stream: 1 if the high phase was strictly longer, as unsigned numbers; no other bit of the stream changes. With `i` above 39 the step
that would store stops, by the name of the byte that does not exist (log entry 7). -/
def Obligations.BitHighStoresTheBit : Prop :=
  (∀ s : State, s.i.toNat ≤ 39 → s.frame.wf = true →
    ∃ f : Memory, f.wf = true ∧
      (∀ j, streamBit f j = if j = s.i.toNat then decide (s.lowDur.toNat < s.E.toNat) else streamBit s.frame j) ∧
      (∀ b, b ≠ s.i.toNat / 8 → f.read b = s.frame.read b) ∧
      exec .bitHigh s = .next
        (pollByRule false s.cfg.pBHigh
          (fun u =>
            { u with
              highDur := s.E, frame := f, i := s.i + 1#6, E := 0#16, smp := false
              fsm := if s.i.toNat = 39 then 0x0D#5 else 0x0B#5 }) s)) ∧
  (∀ s : State, 40 ≤ s.i.toNat → s.smp = true → s.answers.headD (Config.lineLevel s.draws) = false →
    exec .bitHigh s = .fault (.frameAddress (s.i.toNat / 8)))

/-! ### Release, checksum, decoding -/

/-- R98, R99: the release states; after REL_LVL a read without an error is validated and any other ends. -/
def Obligations.ReleaseStates : Prop :=
  ∀ s : State,
    exec .relDir s = .next { s with pinDir := .outputOpenDrain, fsm := 0x0E#5, trace := ⟨0x000000001#34, none⟩ :: s.trace } ∧
    (s.err = .ok →
      exec .relLvl s = .next { s with pinOut := true, fsm := 0x0F#5, trace := ⟨0x100000001#34, none⟩ :: s.trace }) ∧
    (s.err = .timeout ∨ s.err = .checksumMismatch →
      exec .relLvl s = .next
        { s with pinOut := true, busy := false, done := true, fsm := 0x00#5, trace := ⟨0x100000001#34, none⟩ :: s.trace })

/-- R100, R101: VALIDATE goes to DECODE exactly when the sum of the four data bytes, modulo 256, is byte 4; otherwise it ends the read
with CHECKSUM_MISMATCH. -/
def Obligations.ValidateChecksTheSum : Prop :=
  ∀ s : State,
    (((s.frame.read 0).toNat + (s.frame.read 1).toNat + (s.frame.read 2).toNat + (s.frame.read 3).toNat) % 256
        = (s.frame.read 4).toNat → exec .validate s = .next { s with fsm := 0x10#5 }) ∧
    (((s.frame.read 0).toNat + (s.frame.read 1).toNat + (s.frame.read 2).toNat + (s.frame.read 3).toNat) % 256
        ≠ (s.frame.read 4).toNat →
      exec .validate s = .next { s with err := .checksumMismatch, busy := false, done := true, fsm := 0x00#5 })

/-- R103, R104, R105: DECODE's two results as numbers of tenths, by variant; then the read ends, and nothing else changes. -/
def Obligations.DecodeGivesTheTenths : Prop :=
  ∀ s : State, ∃ t h : BitVec 16,
    exec .decode s = .next { s with temp := t, hum := h, busy := false, done := true, fsm := 0x00#5 } ∧
    (s.variant = .variantA → t.toInt = 10 * (s.frame.read 2).toNat ∧ h.toInt = 10 * (s.frame.read 0).toNat) ∧
    (s.variant = .variantB →
      t.toInt = (if 128 ≤ (s.frame.read 2).toNat then -1 else 1) *
        (((s.frame.read 2).toNat % 128 * 256 + (s.frame.read 3).toNat : Nat) : Int) ∧
      h.toInt = (if 128 ≤ (s.frame.read 0).toNat then -1 else 1) *
        (((s.frame.read 0).toNat % 128 * 256 + (s.frame.read 1).toNat : Nat) : Int))

/-- R107: the ranges of the decoded values, with both bounds of VariantB reached; −32768 is never produced. -/
def Obligations.DecodedValuesStayInRange : Prop :=
  (∀ msb lsb : Byte, ∃ n : Nat, n ≤ 255 ∧ (decodeField .variantA msb lsb).toInt = 10 * n) ∧
  (∀ msb lsb : Byte, -32767 ≤ (decodeField .variantB msb lsb).toInt ∧ (decodeField .variantB msb lsb).toInt ≤ 32767) ∧
  (decodeField .variantB 0xFF#8 0xFF#8).toInt = -32767 ∧ (decodeField .variantB 0x7F#8 0xFF#8).toInt = 32767 ∧
  (∀ (v : Variant) (msb lsb : Byte), decodeField v msb lsb ≠ 0x8000#16)

/-! ### What the host sees -/

/-- R51: the STATUS word, bit by bit. -/
def Obligations.StatusWordLayout : Prop :=
  ∀ s : State,
    s.statusWord.getLsbD 0 = s.busy ∧ s.statusWord.getLsbD 1 = s.done ∧
    s.statusWord.extractLsb' 2 2 =
      (match s.err with | .ok => 0b00#2 | .timeout => 0b01#2 | .checksumMismatch => 0b10#2 | .invalidArgument => 0b11#2) ∧
    s.statusWord.extractLsb' 4 4 = 0#4

/-- R66: the result the host reads, from DONE, ERR, TEMP and HUM. -/
def Obligations.HostReadsTheResult : Prop :=
  ∀ s : State,
    (s.done = false → s.result = .ok .pending) ∧
    (s.done = true → s.err = .ok → s.result = .ok (.ok s.temp s.hum)) ∧
    (s.done = true → s.err = .timeout → s.result = .ok .errTimeout) ∧
    (s.done = true → s.err = .checksumMismatch → s.result = .ok .errChecksumMismatch)

/-- R65, R42, R129: once DONE is 1, a step that is no READ and no reset leaves DONE, ERR, TEMP, HUM, the frame and the pin as they are (a
reserved CMD word included: log entry 6). -/
def Obligations.ResultIsStableUntilTheNextRead : Prop :=
  ∀ s t : State, StatusInv s → s.done = true → step s = .next t → s.nextInstr ≠ none → (∀ v, s.nextInstr ≠ some (.read v)) →
    t.done = true ∧ t.busy = false ∧ t.err = s.err ∧ t.temp = s.temp ∧ t.hum = s.hum ∧ t.frame = s.frame ∧
      t.pinDir = s.pinDir ∧ t.pinOut = s.pinOut ∧ t.result = s.result

/-- R78, R123, R113: an idle block with nothing from the outside stays as it is, for any number of steps: nothing but READ (or reset)
wakes it. -/
def Obligations.IdleWaitsForever : Prop :=
  ∀ (s : State) (n : Nat), s.fsm = 0x00#5 → s.inputs = [] → s.err ≠ .invalidArgument → core.run n s = .next s

/-! ### Frames: which operations can write which state -/

/-- R22, R23, R21: only READ and DECODE write TEMP and HUM; only READ the variant; only READ and the read-ending states BUSY and DONE;
only READ, the poll states and VALIDATE `err`. -/
def Obligations.FrameOfStatusAndResults : Prop :=
  ∀ (x : Instr) (s t : State), exec x s = .next t →
    ((∀ v, x ≠ .read v) → t.variant = s.variant ∧
      (x ≠ .decode → t.temp = s.temp ∧ t.hum = s.hum) ∧
      (x ≠ .relLvl → x ≠ .validate → x ≠ .decode → t.busy = s.busy ∧ t.done = s.done) ∧
      (x ≠ .bPoll → x ≠ .cPoll → x ≠ .dPoll → x ≠ .bitLow → x ≠ .bitHigh → x ≠ .validate → t.err = s.err)) ∧
    (s.fsm ≠ 0x00#5 → ∀ v, x = .read v → t = s)

/-- R24, R25, R26, R19: only READ, B_DIR and the poll states write `E` and `smp`; only READ and BIT_LOW `lowDur`; only READ and
BIT_HIGH `highDur` and `i`. -/
def Obligations.FrameOfTheSampler : Prop :=
  ∀ (x : Instr) (s t : State), exec x s = .next t → (∀ v, x ≠ .read v) →
    (x ≠ .bDir → x ≠ .bPoll → x ≠ .cPoll → x ≠ .dPoll → x ≠ .bitLow → x ≠ .bitHigh → t.E = s.E ∧ t.smp = s.smp) ∧
    (x ≠ .bitLow → t.lowDur = s.lowDur) ∧ (x ≠ .bitHigh → t.highDur = s.highDur ∧ t.i = s.i)

/-- R31, R33, R36: frame space. Every byte reads as before, but READ's (all read 0x00 once it is accepted) and BIT_HIGH's byte
`i / 8`. -/
def Obligations.FrameOfFrameSpace : Prop :=
  ∀ (x : Instr) (s t : State), exec x s = .next t →
    ((∀ v, x ≠ .read v) → x ≠ .bitHigh → ∀ b, t.frame.read b = s.frame.read b) ∧
    (x = .bitHigh → ∀ b, b ≠ s.i.toNat / 8 → t.frame.read b = s.frame.read b) ∧
    (∀ v, x = .read v → s.fsm = 0x00#5 → ∀ b, t.frame.read b = 0#8)

/-- R28, R69, R70, R72, R12: only SETDIR and the four states that issue it write `pinDir`; only SETLVL and its four states `pinOut`;
only a GETLVL uses a level up; only a DELAY (or READ) moves the block's time; only a request (or READ) changes the bus record, and no
operation issues more than one; the configuration and what the outside will do are never written. -/
def Obligations.FrameOfThePinAndTheBus : Prop :=
  ∀ (x : Instr) (s t : State), exec x s = .next t →
    t.cfg = s.cfg ∧ t.inputs = s.inputs ∧
    ((∀ m, x ≠ .setdir m) → x ≠ .initDir → x ≠ .aDir → x ≠ .bDir → x ≠ .relDir → t.pinDir = s.pinDir) ∧
    ((∀ v, x ≠ .setlvl v) → x ≠ .initLvl → x ≠ .aLow → x ≠ .aRel → x ≠ .relLvl → t.pinOut = s.pinOut) ∧
    (x ≠ .getlvl → x ≠ .bPoll → x ≠ .cPoll → x ≠ .dPoll → x ≠ .bitLow → x ≠ .bitHigh →
      t.answers = s.answers ∧ t.draws = s.draws) ∧
    ((∀ n, x ≠ .delay n) → (∀ v, x ≠ .read v) → x ≠ .aWait → x ≠ .bPoll → x ≠ .cPoll → x ≠ .dPoll → x ≠ .bitLow → x ≠ .bitHigh →
      t.tBlk = s.tBlk) ∧
    ((∀ v, x ≠ .read v) → t.trace = s.trace ∨ ∃ e, t.trace = e :: s.trace) ∧
    (x = .idle ∨ x = .validate ∨ x = .decode → t.trace = s.trace)

/-! ### Invariants -/

/-- The invariants hold right after reset. -/
def Obligations.ResetMeetsTheInvariants : Prop := Inv State.reset

/-- R20 (with R19; log entry 12): a step from a legal FSM code ends in a legal one, no step writes a reserved code, and no step but a
reset answers a next state where `fsm` holds one. -/
def Obligations.FsmCodesStayLegal : Prop :=
  (∀ s t : State, FsmInv s → step s = .next t → FsmInv t) ∧
  (∀ s t : State, step s = .next t → t.fsm ≠ s.fsm → t.fsm.toNat ≤ 0x10) ∧
  (∀ s t : State, 0x11 ≤ s.fsm.toNat → s.nextInstr ≠ none → step s ≠ .next t)

/-- R22, R65, R111, R112, R114: every step keeps the discipline of BUSY, DONE and ERR. -/
def Obligations.StatusDisciplineIsKept : Prop := ∀ s t : State, StatusInv s → step s = .next t → StatusInv t

/-- R29, R70, R71: every step keeps the pin driver at the value its FSM state calls for; in IDLE the line is released. -/
def Obligations.PinFollowsTheFsm : Prop := ∀ s t : State, FsmInv s → PinInv s → step s = .next t → PinInv t

/-- R24, R26: every step keeps the sampler's bounds, so `E` never wraps and `i` never passes 40. -/
def Obligations.SamplerBoundsAreKept : Prop :=
  ∀ s t : State, FsmInv s → SamplerInv s → step s = .next t → SamplerInv t

/-- R33, R94, R95: every step keeps frame space canonical and the bits not yet received 0. -/
def Obligations.FrameSpaceIsKept : Prop := ∀ s t : State, FrameInv s → step s = .next t → FrameInv t

/-- R23, R66, R101, R102: every step keeps TEMP and HUM at 0 unless the read ended `Ok`, and then at the decoding of a frame that has
its checksum. -/
def Obligations.ResultsAreOfACheckedFrame : Prop :=
  ∀ s t : State, StatusInv s → ResultInv s → step s = .next t → ResultInv t

/-- R135: a read's delays never sum to more than the start pulse and the longest waits; with the default parameters, 25896 µs. -/
def Obligations.ReadTimeIsBounded : Prop :=
  (∀ s t : State, FsmInv s → SamplerInv s → TimeInv s → step s = .next t → TimeInv t) ∧
  (∀ s : State, FsmInv s → SamplerInv s → TimeInv s → s.cfg = Params.default → s.tBlk ≤ 25896)

/-- R75, R89, R97, R135: every step keeps the bus requests and the time of a read in step with each other; with the default
parameters a read issues at most 5905 requests. -/
def Obligations.ReadRequestsAreBounded : Prop :=
  (∀ s t : State, Inv s → step s = .next t → RequestInv t) ∧
  (∀ s : State, Inv s → s.busy = true ∨ s.done = true → s.cfg = Params.default → s.trace.length ≤ 5905)

/-- Every step keeps all of the invariants together. -/
def Obligations.EveryStepKeepsTheInvariants : Prop := ∀ s t : State, Inv s → step s = .next t → Inv t

/-- R15, R20, R36, R111: from a state that meets the invariants every step answers: the block has no faults of its own.
The step may be one that is given a reserved CMD word: that it answers is the model's choice to ignore the word (log entry 6), where
R50 says that a model refuses it. -/
def Obligations.NoStepStops : Prop := ∀ s : State, FsmInv s → StatusInv s → SamplerInv s → ∃ t, step s = .next t

/-! ### Runs of the FSM -/

/-- R75, R76: a wait whose samples are `k - 1` times the other level and then the expected one succeeds at poll `k`, after 2k steps
and 2k requests, with duration (k − 1)·`P_G`. -/
def Obligations.WaitSucceedsAtItsPoll : Prop :=
  ∀ (s : State) (k : Nat) (rest : List Level), WaitBegins s →
    1 ≤ k → k ≤ pollCount s.cfg (pollParamsAt s.cfg s.fsm).budget →
    s.answers = waitLevels (pollParamsAt s.cfg s.fsm).expected k ++ rest →
    core.run (2 * k) s = .next
      (afterWait
        { afterPolls s (waitLevels (pollParamsAt s.cfg s.fsm).expected k) rest with
          smp := true, E := BitVec.ofNat 16 ((k - 1) * s.cfg.pG.toNat) })

/-- R75, R112: a wait whose K(B) samples all miss times out after 2·K(B) + 1 steps and 2·K(B) requests, the last step issuing nothing;
a budget of 0 times out at once. -/
def Obligations.WaitTimesOut : Prop :=
  ∀ (s : State) (rest : List Level), WaitBegins s →
    s.answers = List.replicate (pollCount s.cfg (pollParamsAt s.cfg s.fsm).budget) (!(pollParamsAt s.cfg s.fsm).expected) ++ rest →
    core.run (2 * pollCount s.cfg (pollParamsAt s.cfg s.fsm).budget + 1) s = .next
      { afterPolls s
          (List.replicate (pollCount s.cfg (pollParamsAt s.cfg s.fsm).budget) (!(pollParamsAt s.cfg s.fsm).expected)) rest with
        err := .timeout, fsm := 0x0D#5
        E := BitVec.ofNat 16 (pollCount s.cfg (pollParamsAt s.cfg s.fsm).budget * s.cfg.pG.toNat) }

/-- R112, R115, R98, R99: after a timeout the bus is released in two steps and the read ends there; TEMP and HUM are as they were. -/
def Obligations.TimeoutReleasesAndEnds : Prop :=
  ∀ s : State, s.fsm = 0x0D#5 → s.err = .timeout → s.inputs = [] →
    core.run 2 s = .next
      { s with
        pinDir := .outputOpenDrain, pinOut := true, busy := false, done := true, fsm := 0x00#5
        trace := ⟨0x100000001#34, none⟩ :: ⟨0x000000001#34, none⟩ :: s.trace }

/-- R89: the handshake's bus trace and time: 7 + 2·(kB + kC + kD) requests and steps, `P_T_START` + `P_G`·(kB + kC + kD) µs. -/
def Obligations.HandshakeTrace : Prop :=
  ∀ (s : State) (kB kC kD : Nat) (rest : List Level), s.fsm = 0x01#5 → s.cfg.legal = true → s.err ≠ .invalidArgument →
    s.inputs = [] → s.i.toNat ≤ 39 → ackPolls s.cfg kB kC kD → s.answers = ackLevels kB kC kD ++ rest →
    core.run (7 + 2 * (kB + kC + kD)) s = .next
      { s with
        fsm := 0x0B#5, E := 0#16, smp := false, pinDir := .input, pinOut := true, answers := rest
        draws := s.draws + (kB + kC + kD)
        tBlk := s.tBlk + s.cfg.pTStart.toNat + s.cfg.pG.toNat * (kB + kC + kD)
        trace := pollEvents s.cfg (ackLevels kB kC kD) ++
          [⟨0x000000000#34, none⟩, ⟨0x100000001#34, none⟩, ⟨0x300000000#34 + s.cfg.pTStart.zeroExtend 34, none⟩,
            ⟨0x100000000#34, none⟩, ⟨0x000000001#34, none⟩, ⟨0x100000001#34, none⟩, ⟨0x000000001#34, none⟩] ++ s.trace }

/-- R93, R94: a bit whose low phase ends at poll kl and whose high phase ends at poll kh is stored as 1 exactly when kh > kl. -/
def Obligations.BitIsOneWhenHighPollsExceedLow : Prop :=
  ∀ (s : State) (kl kh : Nat) (rest : List Level), s.fsm = 0x0B#5 → WaitBegins s → s.frame.wf = true → bitPolls s.cfg kl kh →
    s.answers = bitLevels kl kh ++ rest →
    ∃ t, core.run (2 * (kl + kh)) s = .next t ∧
      (∀ j, streamBit t.frame j = if j = s.i.toNat then decide (kl < kh) else streamBit s.frame j) ∧
      t.frame.wf = true ∧ t.i = s.i + 1#6 ∧ t.fsm = (if s.i.toNat = 39 then 0x0D#5 else 0x0B#5) ∧ t.E = 0#16 ∧ t.smp = false ∧
      t.lowDur.toNat = (kl - 1) * s.cfg.pG.toNat ∧ t.highDur.toNat = (kh - 1) * s.cfg.pG.toNat ∧
      t.answers = rest ∧ t.inputs = [] ∧ t.cfg = s.cfg ∧ t.err = s.err ∧ t.busy = s.busy ∧ t.done = s.done ∧
      t.variant = s.variant ∧ t.temp = s.temp ∧ t.hum = s.hum ∧ t.pinDir = s.pinDir ∧ t.pinOut = s.pinOut ∧
      t.tBlk = s.tBlk + s.cfg.pG.toNat * (kl + kh) ∧ t.trace = pollEvents s.cfg (bitLevels kl kh) ++ s.trace

/-- R94, R97: the bit loop runs exactly 40 times and leaves the 40 decoded bits in the frame, in the order of reception. -/
def Obligations.BitLoopStoresTheStream : Prop :=
  ∀ (s : State) (ks : List (Nat × Nat)) (rest : List Level), s.fsm = 0x0B#5 → WaitBegins s → s.frame.wf = true → s.i = 0#6 →
    ks.length = 40 → (∀ k ∈ ks, bitPolls s.cfg k.1 k.2) → s.answers = streamLevels ks ++ rest →
    ∃ t, core.run (2 * streamPolls ks) s = .next t ∧ t.fsm = 0x0D#5 ∧ t.i = 40#6 ∧ t.err = s.err ∧
      (∀ j, (hj : j < ks.length) → streamBit t.frame j = decide (ks[j].1 < ks[j].2)) ∧ t.frame.wf = true ∧
      t.variant = s.variant ∧ t.temp = s.temp ∧ t.hum = s.hum ∧ t.busy = s.busy ∧ t.done = s.done ∧ t.inputs = [] ∧
      t.pinDir = s.pinDir ∧ t.pinOut = s.pinOut ∧ t.cfg = s.cfg ∧ t.answers = rest ∧
      t.tBlk = s.tBlk + s.cfg.pG.toNat * streamPolls ks ∧ t.trace = pollEvents s.cfg (streamLevels ks) ++ s.trace

/-- R62, R65, R89, R94, R98 to R103: a whole read. A READ word presented in IDLE, answered within every budget, ends with the line
released and the 40 decoded bits in the frame: in `Ok` with the frame's decoded values if the frame has its checksum, and otherwise in
CHECKSUM_MISMATCH with TEMP and HUM 0. The step count has the READ's own step in it (log entry 4); time and bus record count from
the READ (R46; the record by the model's choice, log entry 5). -/
def Obligations.CompleteReadPublishesItsFrame : Prop :=
  ∀ (s : State) (v : Variant) (kB kC kD : Nat) (ks : List (Nat × Nat)) (rest : List Level),
    s.fsm = 0x00#5 → s.cfg.legal = true → s.err ≠ .invalidArgument →
    s.inputs = [.cmd (if v = .variantA then 0x01#8 else 0x03#8)] → ackPolls s.cfg kB kC kD → ks.length = 40 →
    (∀ k ∈ ks, bitPolls s.cfg k.1 k.2) → s.answers = ackLevels kB kC kD ++ (streamLevels ks ++ rest) →
    ∃ n t, core.run n s = .next t ∧ t.fsm = 0x00#5 ∧ t.busy = false ∧ t.done = true ∧
      t.pinDir = .outputOpenDrain ∧ t.pinOut = true ∧ t.answers = rest ∧ t.variant = v ∧
      (∀ j, (hj : j < ks.length) → streamBit t.frame j = decide (ks[j].1 < ks[j].2)) ∧
      t.tBlk = s.cfg.pTStart.toNat + s.cfg.pG.toNat * (kB + kC + kD + streamPolls ks) ∧
      t.trace.length = 9 + 2 * (kB + kC + kD + streamPolls ks) ∧
      (checksumHolds t.frame →
        n = 12 + 2 * (kB + kC + kD + streamPolls ks) ∧ t.err = .ok ∧
        t.temp = decodeField v (t.frame.read 2) (t.frame.read 3) ∧ t.hum = decodeField v (t.frame.read 0) (t.frame.read 1)) ∧
      (¬checksumHolds t.frame →
        n = 11 + 2 * (kB + kC + kD + streamPolls ks) ∧ t.err = .checksumMismatch ∧ t.temp = 0#16 ∧ t.hum = 0#16)

/-- R113, R131, R137: a read in progress that nothing interrupts ends, whatever the line shows: within `readSteps` steps the block is
idle with DONE = 1 and the line released. -/
def Obligations.EveryReadEnds : Prop :=
  ∀ s : State, Inv s → s.fsm ≠ 0x00#5 → s.inputs = [] →
    ∃ n t, n ≤ readSteps s.cfg ∧ core.run n s = .next t ∧ t.fsm = 0x00#5 ∧ t.busy = false ∧ t.done = true ∧
      t.pinDir = .outputOpenDrain ∧ t.pinOut = true

/-! ### Non-interference -/

/-- R67: the outcome of a read depends only on its variant and the levels it is answered with: two idle blocks, whatever their earlier
reads left, are in the same state after any number of steps from the same READ on. -/
def Obligations.ReadsAreIndependent : Prop :=
  ∀ (s u : State) (w : BitVec 8) (r : List Input) (v : Variant) (n : Nat), decodeCmd w = .read v →
    s.fsm = 0x00#5 → u.fsm = 0x00#5 → PinInv s → PinInv u → s.err ≠ .invalidArgument → u.err ≠ .invalidArgument →
    s.cfg = u.cfg → s.inputs = .cmd w :: r → u.inputs = .cmd w :: r → s.answers = u.answers → s.draws = u.draws →
    core.run (n + 1) s = core.run (n + 1) u

/-- R21, R62 (READ A and READ B differ only in `variant` up to DECODE): no operation but DECODE reads the variant latch. -/
def Obligations.OnlyDecodeReadsTheVariant : Prop :=
  ∀ (x : Instr) (s : State) (v : Variant), x ≠ .decode → (∀ w, x ≠ .read w) →
    exec x { s with variant := v } = mapNext (fun t => { t with variant := v }) (exec x s)

/-- R17, R23: TEMP and HUM are outputs only: no operation but READ and DECODE, which write them, depends on them. -/
def Obligations.ResultsFeedNothingBack : Prop :=
  ∀ (x : Instr) (s : State) (t h : BitVec 16), x ≠ .decode → (∀ w, x ≠ .read w) →
    exec x { s with temp := t, hum := h } = mapNext (fun u => { u with temp := t, hum := h }) (exec x s)
end

