-- ==== Sys2Proof/Laws/Memory.lean ====
section
/-! SUPPORT. The laws of frame space: what is read after a write, and that every operation keeps the canonical form. -/

namespace Sys2Proof.Machine

@[simp] theorem Memory.read_nil (b : Nat) : Memory.read [] b = 0#8 := rfl

@[simp] theorem Memory.read_cleared (b : Nat) : Memory.cleared.read b = 0#8 := rfl

theorem Memory.read_cons (a : Nat) (v : Byte) (m : Memory) (b : Nat) :
    Memory.read ((a, v) :: m) b = if a = b then v else Memory.read m b := rfl

theorem Memory.wfFrom_cons (lo a : Nat) (v : Byte) (m : Memory) :
    Memory.wfFrom lo ((a, v) :: m) = true ↔ lo ≤ a ∧ a < 5 ∧ v ≠ 0#8 ∧ Memory.wfFrom (a + 1) m = true := by
  simp [Memory.wfFrom, and_assoc]

theorem Memory.wfFrom_mono (m : Memory) (lo lo' : Nat) (h : lo' ≤ lo) (hm : Memory.wfFrom lo m = true) :
    Memory.wfFrom lo' m = true := by
  cases m with
  | nil => rfl
  | cons p m =>
    rw [Memory.wfFrom_cons] at hm ⊢
    exact ⟨by omega, hm.2⟩

/-- Below the first listed address every byte reads 0x00. -/
theorem Memory.read_below (m : Memory) (lo b : Nat) (hm : Memory.wfFrom lo m = true) (hb : b < lo) : m.read b = 0#8 := by
  induction m generalizing lo with
  | nil => rfl
  | cons p m ih =>
    obtain ⟨a, v⟩ := p
    rw [Memory.wfFrom_cons] at hm
    rw [Memory.read_cons, if_neg (by omega)]
    exact ih (a + 1) hm.2.2.2 (by omega)

/-- A write leaves every other byte alone, whatever the form of the list. -/
theorem Memory.read_write_other (m : Memory) (b c : Nat) (v : Byte) (h : c ≠ b) : (m.write b v).read c = m.read c := by
  induction m with
  | nil =>
    unfold Memory.write
    split
    · rfl
    · rw [Memory.read_cons, if_neg (Ne.symm h)]
  | cons p m ih =>
    obtain ⟨a, w⟩ := p
    unfold Memory.write
    split
    · split
      · rfl
      · rw [Memory.read_cons, if_neg (Ne.symm h)]
    · split
      · rename_i _ hab
        subst hab
        have hac : a ≠ c := Ne.symm h
        split <;> simp [Memory.read_cons, hac]
      · simp only [Memory.read_cons, ih]

theorem Memory.read_write_same_from (m : Memory) (lo b : Nat) (v : Byte) (hm : Memory.wfFrom lo m = true) :
    (m.write b v).read b = v := by
  induction m generalizing lo with
  | nil =>
    unfold Memory.write
    split
    · simp_all
    · simp [Memory.read_cons]
  | cons p m ih =>
    obtain ⟨a, w⟩ := p
    have hm' := hm
    rw [Memory.wfFrom_cons] at hm
    unfold Memory.write
    split
    · split
      · rename_i hb hv
        rw [hv]
        exact Memory.read_below _ a b ((Memory.wfFrom_cons a a w m).2 ⟨le_refl a, hm.2⟩) hb
      · simp [Memory.read_cons]
    · split
      · split
        · rename_i hab hv
          rw [hv]
          exact Memory.read_below m (a + 1) b hm.2.2.2 (by omega)
        · simp [Memory.read_cons]
      · rename_i hab
        rw [Memory.read_cons, if_neg hab]
        exact ih (a + 1) hm.2.2.2

/-- A read after a write to the same byte gives the byte written. -/
theorem Memory.read_write_same (m : Memory) (b : Nat) (v : Byte) (hm : m.wf = true) : (m.write b v).read b = v :=
  Memory.read_write_same_from m 0 b v hm

theorem Memory.wfFrom_write (m : Memory) (lo b : Nat) (v : Byte) (hb : b < 5) (hlo : lo ≤ b) (hm : Memory.wfFrom lo m = true) :
    Memory.wfFrom lo (m.write b v) = true := by
  induction m generalizing lo with
  | nil =>
    unfold Memory.write
    split
    · rfl
    · simp_all [Memory.wfFrom]
  | cons p m ih =>
    obtain ⟨a, w⟩ := p
    have hm' := hm
    rw [Memory.wfFrom_cons] at hm
    obtain ⟨h1, h2, h3, h4⟩ := hm
    unfold Memory.write
    split
    · split
      · exact hm'
      · rename_i hba hv
        simp only [Memory.wfFrom_cons]
        exact ⟨hlo, hb, hv, by omega, h2, h3, h4⟩
    · split
      · split
        · exact Memory.wfFrom_mono m (a + 1) lo (by omega) h4
        · rename_i hab hv
          simp only [Memory.wfFrom_cons]
          subst hab
          exact ⟨hlo, hb, hv, h4⟩
      · simp only [Memory.wfFrom_cons]
        exact ⟨h1, h2, h3, ih (a + 1) (by omega) h4⟩

/-- A write into frame space keeps the canonical form. -/
theorem Memory.wf_write (m : Memory) (b : Nat) (v : Byte) (hb : b < 5) (hm : m.wf = true) : (m.write b v).wf = true :=
  Memory.wfFrom_write m 0 b v hb (Nat.zero_le b) hm

theorem Memory.wf_cleared : Memory.cleared.wf = true := rfl

/-- Canonical memories that read alike from `lo` on are equal data. -/
theorem Memory.ext_from (m n : Memory) (lo : Nat) (hm : Memory.wfFrom lo m = true) (hn : Memory.wfFrom lo n = true)
    (h : ∀ b, lo ≤ b → m.read b = n.read b) : m = n := by
  induction m generalizing n lo with
  | nil =>
    cases n with
    | nil => rfl
    | cons q n =>
      obtain ⟨a, v⟩ := q
      rw [Memory.wfFrom_cons] at hn
      have := h a hn.1
      simp [Memory.read_cons] at this
      exact absurd this.symm hn.2.2.1
  | cons p m ih =>
    obtain ⟨a, v⟩ := p
    rw [Memory.wfFrom_cons] at hm
    cases n with
    | nil =>
      have := h a hm.1
      simp [Memory.read_cons] at this
      exact absurd this hm.2.2.1
    | cons q n =>
      obtain ⟨c, w⟩ := q
      rw [Memory.wfFrom_cons] at hn
      rcases Nat.lt_trichotomy a c with hac | hac | hac
      · have e := h a hm.1
        rw [Memory.read_cons, if_pos rfl, Memory.read_cons, if_neg (by omega),
          Memory.read_below n (c + 1) a hn.2.2.2 (by omega)] at e
        exact absurd e hm.2.2.1
      · subst hac
        have e := h a hm.1
        rw [Memory.read_cons, if_pos rfl, Memory.read_cons, if_pos rfl] at e
        subst e
        have hmn : m = n := ih n (a + 1) hm.2.2.2 hn.2.2.2 (fun b hb => by
          have := h b (by omega)
          rwa [Memory.read_cons, if_neg (by omega), Memory.read_cons, if_neg (by omega)] at this)
        rw [hmn]
      · have e := h c hn.1
        rw [Memory.read_cons, if_neg (by omega), Memory.read_cons c, if_pos rfl,
          Memory.read_below m (a + 1) c hm.2.2.2 (by omega)] at e
        exact absurd e.symm hn.2.2.1

/-- READ's clearing is what the five writes of R62 leave. -/
theorem Memory.five_zero_writes (m : Memory) (hm : m.wf = true) :
    ((((m.write 0 0#8).write 1 0#8).write 2 0#8).write 3 0#8).write 4 0#8 = Memory.cleared := by
  have w0 := Memory.wf_write m 0 0#8 (by omega) hm
  have w1 := Memory.wf_write _ 1 0#8 (by omega) w0
  have w2 := Memory.wf_write _ 2 0#8 (by omega) w1
  have w3 := Memory.wf_write _ 3 0#8 (by omega) w2
  have w4 := Memory.wf_write _ 4 0#8 (by omega) w3
  have above : ∀ (n : Memory) (lo b : Nat), Memory.wfFrom lo n = true → 5 ≤ b → n.read b = 0#8 := by
    intro n
    induction n with
    | nil => intros; rfl
    | cons p n ih =>
      intro lo b hn hb
      obtain ⟨a, v⟩ := p
      rw [Memory.wfFrom_cons] at hn
      rw [Memory.read_cons, if_neg (by omega)]
      exact ih (a + 1) b hn.2.2.2 hb
  refine Memory.ext_from _ _ 0 w4 rfl (fun b _ => ?_)
  rw [Memory.read_cleared]
  by_cases h4 : b = 4
  · subst h4; exact Memory.read_write_same _ _ _ w3
  rw [Memory.read_write_other _ _ _ _ h4]
  by_cases h3 : b = 3
  · subst h3; exact Memory.read_write_same _ _ _ w2
  rw [Memory.read_write_other _ _ _ _ h3]
  by_cases h2 : b = 2
  · subst h2; exact Memory.read_write_same _ _ _ w1
  rw [Memory.read_write_other _ _ _ _ h2]
  by_cases h1 : b = 1
  · subst h1; exact Memory.read_write_same _ _ _ w0
  rw [Memory.read_write_other _ _ _ _ h1]
  by_cases h0 : b = 0
  · subst h0; exact Memory.read_write_same _ _ _ hm
  rw [Memory.read_write_other _ _ _ _ h0]
  exact above m 0 b hm (by omega)

end Sys2Proof.Machine
end

