-- ==== Sys2Proof/Laws/State.lean ====
section
/-! SUPPORT. What each update of State leaves in each field, so that no proof unfolds a record update. -/

namespace Sys2Proof.Machine

/-! ### State.goto -/

@[simp] theorem State.goto_cfg (s : State) (code : BitVec 5) : (s.goto code).cfg = s.cfg := rfl
@[simp] theorem State.goto_fsm (s : State) (code : BitVec 5) : (s.goto code).fsm = code := rfl
@[simp] theorem State.goto_smp (s : State) (code : BitVec 5) : (s.goto code).smp = s.smp := rfl
@[simp] theorem State.goto_variant (s : State) (code : BitVec 5) : (s.goto code).variant = s.variant := rfl
@[simp] theorem State.goto_busy (s : State) (code : BitVec 5) : (s.goto code).busy = s.busy := rfl
@[simp] theorem State.goto_done (s : State) (code : BitVec 5) : (s.goto code).done = s.done := rfl
@[simp] theorem State.goto_err (s : State) (code : BitVec 5) : (s.goto code).err = s.err := rfl
@[simp] theorem State.goto_temp (s : State) (code : BitVec 5) : (s.goto code).temp = s.temp := rfl
@[simp] theorem State.goto_hum (s : State) (code : BitVec 5) : (s.goto code).hum = s.hum := rfl
@[simp] theorem State.goto_E (s : State) (code : BitVec 5) : (s.goto code).E = s.E := rfl
@[simp] theorem State.goto_lowDur (s : State) (code : BitVec 5) : (s.goto code).lowDur = s.lowDur := rfl
@[simp] theorem State.goto_highDur (s : State) (code : BitVec 5) : (s.goto code).highDur = s.highDur := rfl
@[simp] theorem State.goto_i (s : State) (code : BitVec 5) : (s.goto code).i = s.i := rfl
@[simp] theorem State.goto_frame (s : State) (code : BitVec 5) : (s.goto code).frame = s.frame := rfl
@[simp] theorem State.goto_pinDir (s : State) (code : BitVec 5) : (s.goto code).pinDir = s.pinDir := rfl
@[simp] theorem State.goto_pinOut (s : State) (code : BitVec 5) : (s.goto code).pinOut = s.pinOut := rfl
@[simp] theorem State.goto_inputs (s : State) (code : BitVec 5) : (s.goto code).inputs = s.inputs := rfl
@[simp] theorem State.goto_answers (s : State) (code : BitVec 5) : (s.goto code).answers = s.answers := rfl
@[simp] theorem State.goto_draws (s : State) (code : BitVec 5) : (s.goto code).draws = s.draws := rfl
@[simp] theorem State.goto_tBlk (s : State) (code : BitVec 5) : (s.goto code).tBlk = s.tBlk := rfl
@[simp] theorem State.goto_trace (s : State) (code : BitVec 5) : (s.goto code).trace = s.trace := rfl

/-! ### State.enterPoll -/

@[simp] theorem State.enterPoll_cfg (s : State) (code : BitVec 5) : (s.enterPoll code).cfg = s.cfg := rfl
@[simp] theorem State.enterPoll_fsm (s : State) (code : BitVec 5) : (s.enterPoll code).fsm = code := rfl
@[simp] theorem State.enterPoll_smp (s : State) (code : BitVec 5) : (s.enterPoll code).smp = false := rfl
@[simp] theorem State.enterPoll_variant (s : State) (code : BitVec 5) : (s.enterPoll code).variant = s.variant := rfl
@[simp] theorem State.enterPoll_busy (s : State) (code : BitVec 5) : (s.enterPoll code).busy = s.busy := rfl
@[simp] theorem State.enterPoll_done (s : State) (code : BitVec 5) : (s.enterPoll code).done = s.done := rfl
@[simp] theorem State.enterPoll_err (s : State) (code : BitVec 5) : (s.enterPoll code).err = s.err := rfl
@[simp] theorem State.enterPoll_temp (s : State) (code : BitVec 5) : (s.enterPoll code).temp = s.temp := rfl
@[simp] theorem State.enterPoll_hum (s : State) (code : BitVec 5) : (s.enterPoll code).hum = s.hum := rfl
@[simp] theorem State.enterPoll_E (s : State) (code : BitVec 5) : (s.enterPoll code).E = 0#16 := rfl
@[simp] theorem State.enterPoll_lowDur (s : State) (code : BitVec 5) : (s.enterPoll code).lowDur = s.lowDur := rfl
@[simp] theorem State.enterPoll_highDur (s : State) (code : BitVec 5) : (s.enterPoll code).highDur = s.highDur := rfl
@[simp] theorem State.enterPoll_i (s : State) (code : BitVec 5) : (s.enterPoll code).i = s.i := rfl
@[simp] theorem State.enterPoll_frame (s : State) (code : BitVec 5) : (s.enterPoll code).frame = s.frame := rfl
@[simp] theorem State.enterPoll_pinDir (s : State) (code : BitVec 5) : (s.enterPoll code).pinDir = s.pinDir := rfl
@[simp] theorem State.enterPoll_pinOut (s : State) (code : BitVec 5) : (s.enterPoll code).pinOut = s.pinOut := rfl
@[simp] theorem State.enterPoll_inputs (s : State) (code : BitVec 5) : (s.enterPoll code).inputs = s.inputs := rfl
@[simp] theorem State.enterPoll_answers (s : State) (code : BitVec 5) : (s.enterPoll code).answers = s.answers := rfl
@[simp] theorem State.enterPoll_draws (s : State) (code : BitVec 5) : (s.enterPoll code).draws = s.draws := rfl
@[simp] theorem State.enterPoll_tBlk (s : State) (code : BitVec 5) : (s.enterPoll code).tBlk = s.tBlk := rfl
@[simp] theorem State.enterPoll_trace (s : State) (code : BitVec 5) : (s.enterPoll code).trace = s.trace := rfl

/-! ### State.record -/

@[simp] theorem State.record_cfg (s : State) (req : BitVec 34) (rsp : Option Level) : (s.record req rsp).cfg = s.cfg := rfl
@[simp] theorem State.record_fsm (s : State) (req : BitVec 34) (rsp : Option Level) : (s.record req rsp).fsm = s.fsm := rfl
@[simp] theorem State.record_smp (s : State) (req : BitVec 34) (rsp : Option Level) : (s.record req rsp).smp = s.smp := rfl
@[simp] theorem State.record_variant (s : State) (req : BitVec 34) (rsp : Option Level) : (s.record req rsp).variant = s.variant := rfl
@[simp] theorem State.record_busy (s : State) (req : BitVec 34) (rsp : Option Level) : (s.record req rsp).busy = s.busy := rfl
@[simp] theorem State.record_done (s : State) (req : BitVec 34) (rsp : Option Level) : (s.record req rsp).done = s.done := rfl
@[simp] theorem State.record_err (s : State) (req : BitVec 34) (rsp : Option Level) : (s.record req rsp).err = s.err := rfl
@[simp] theorem State.record_temp (s : State) (req : BitVec 34) (rsp : Option Level) : (s.record req rsp).temp = s.temp := rfl
@[simp] theorem State.record_hum (s : State) (req : BitVec 34) (rsp : Option Level) : (s.record req rsp).hum = s.hum := rfl
@[simp] theorem State.record_E (s : State) (req : BitVec 34) (rsp : Option Level) : (s.record req rsp).E = s.E := rfl
@[simp] theorem State.record_lowDur (s : State) (req : BitVec 34) (rsp : Option Level) : (s.record req rsp).lowDur = s.lowDur := rfl
@[simp] theorem State.record_highDur (s : State) (req : BitVec 34) (rsp : Option Level) : (s.record req rsp).highDur = s.highDur := rfl
@[simp] theorem State.record_i (s : State) (req : BitVec 34) (rsp : Option Level) : (s.record req rsp).i = s.i := rfl
@[simp] theorem State.record_frame (s : State) (req : BitVec 34) (rsp : Option Level) : (s.record req rsp).frame = s.frame := rfl
@[simp] theorem State.record_pinDir (s : State) (req : BitVec 34) (rsp : Option Level) : (s.record req rsp).pinDir = s.pinDir := rfl
@[simp] theorem State.record_pinOut (s : State) (req : BitVec 34) (rsp : Option Level) : (s.record req rsp).pinOut = s.pinOut := rfl
@[simp] theorem State.record_inputs (s : State) (req : BitVec 34) (rsp : Option Level) : (s.record req rsp).inputs = s.inputs := rfl
@[simp] theorem State.record_answers (s : State) (req : BitVec 34) (rsp : Option Level) : (s.record req rsp).answers = s.answers := rfl
@[simp] theorem State.record_draws (s : State) (req : BitVec 34) (rsp : Option Level) : (s.record req rsp).draws = s.draws := rfl
@[simp] theorem State.record_tBlk (s : State) (req : BitVec 34) (rsp : Option Level) : (s.record req rsp).tBlk = s.tBlk := rfl
@[simp] theorem State.record_trace (s : State) (req : BitVec 34) (rsp : Option Level) : (s.record req rsp).trace = ⟨req, rsp⟩ :: s.trace := rfl

/-! ### State.busSetDir -/

@[simp] theorem State.busSetDir_cfg (s : State) (m : PinDir) : (s.busSetDir m).cfg = s.cfg := rfl
@[simp] theorem State.busSetDir_fsm (s : State) (m : PinDir) : (s.busSetDir m).fsm = s.fsm := rfl
@[simp] theorem State.busSetDir_smp (s : State) (m : PinDir) : (s.busSetDir m).smp = s.smp := rfl
@[simp] theorem State.busSetDir_variant (s : State) (m : PinDir) : (s.busSetDir m).variant = s.variant := rfl
@[simp] theorem State.busSetDir_busy (s : State) (m : PinDir) : (s.busSetDir m).busy = s.busy := rfl
@[simp] theorem State.busSetDir_done (s : State) (m : PinDir) : (s.busSetDir m).done = s.done := rfl
@[simp] theorem State.busSetDir_err (s : State) (m : PinDir) : (s.busSetDir m).err = s.err := rfl
@[simp] theorem State.busSetDir_temp (s : State) (m : PinDir) : (s.busSetDir m).temp = s.temp := rfl
@[simp] theorem State.busSetDir_hum (s : State) (m : PinDir) : (s.busSetDir m).hum = s.hum := rfl
@[simp] theorem State.busSetDir_E (s : State) (m : PinDir) : (s.busSetDir m).E = s.E := rfl
@[simp] theorem State.busSetDir_lowDur (s : State) (m : PinDir) : (s.busSetDir m).lowDur = s.lowDur := rfl
@[simp] theorem State.busSetDir_highDur (s : State) (m : PinDir) : (s.busSetDir m).highDur = s.highDur := rfl
@[simp] theorem State.busSetDir_i (s : State) (m : PinDir) : (s.busSetDir m).i = s.i := rfl
@[simp] theorem State.busSetDir_frame (s : State) (m : PinDir) : (s.busSetDir m).frame = s.frame := rfl
@[simp] theorem State.busSetDir_pinDir (s : State) (m : PinDir) : (s.busSetDir m).pinDir = m := rfl
@[simp] theorem State.busSetDir_pinOut (s : State) (m : PinDir) : (s.busSetDir m).pinOut = s.pinOut := rfl
@[simp] theorem State.busSetDir_inputs (s : State) (m : PinDir) : (s.busSetDir m).inputs = s.inputs := rfl
@[simp] theorem State.busSetDir_answers (s : State) (m : PinDir) : (s.busSetDir m).answers = s.answers := rfl
@[simp] theorem State.busSetDir_draws (s : State) (m : PinDir) : (s.busSetDir m).draws = s.draws := rfl
@[simp] theorem State.busSetDir_tBlk (s : State) (m : PinDir) : (s.busSetDir m).tBlk = s.tBlk := rfl
@[simp] theorem State.busSetDir_trace (s : State) (m : PinDir) : (s.busSetDir m).trace = ⟨setdirWord m, none⟩ :: s.trace := rfl

/-! ### State.busSetLevel -/

@[simp] theorem State.busSetLevel_cfg (s : State) (v : Level) : (s.busSetLevel v).cfg = s.cfg := rfl
@[simp] theorem State.busSetLevel_fsm (s : State) (v : Level) : (s.busSetLevel v).fsm = s.fsm := rfl
@[simp] theorem State.busSetLevel_smp (s : State) (v : Level) : (s.busSetLevel v).smp = s.smp := rfl
@[simp] theorem State.busSetLevel_variant (s : State) (v : Level) : (s.busSetLevel v).variant = s.variant := rfl
@[simp] theorem State.busSetLevel_busy (s : State) (v : Level) : (s.busSetLevel v).busy = s.busy := rfl
@[simp] theorem State.busSetLevel_done (s : State) (v : Level) : (s.busSetLevel v).done = s.done := rfl
@[simp] theorem State.busSetLevel_err (s : State) (v : Level) : (s.busSetLevel v).err = s.err := rfl
@[simp] theorem State.busSetLevel_temp (s : State) (v : Level) : (s.busSetLevel v).temp = s.temp := rfl
@[simp] theorem State.busSetLevel_hum (s : State) (v : Level) : (s.busSetLevel v).hum = s.hum := rfl
@[simp] theorem State.busSetLevel_E (s : State) (v : Level) : (s.busSetLevel v).E = s.E := rfl
@[simp] theorem State.busSetLevel_lowDur (s : State) (v : Level) : (s.busSetLevel v).lowDur = s.lowDur := rfl
@[simp] theorem State.busSetLevel_highDur (s : State) (v : Level) : (s.busSetLevel v).highDur = s.highDur := rfl
@[simp] theorem State.busSetLevel_i (s : State) (v : Level) : (s.busSetLevel v).i = s.i := rfl
@[simp] theorem State.busSetLevel_frame (s : State) (v : Level) : (s.busSetLevel v).frame = s.frame := rfl
@[simp] theorem State.busSetLevel_pinDir (s : State) (v : Level) : (s.busSetLevel v).pinDir = s.pinDir := rfl
@[simp] theorem State.busSetLevel_pinOut (s : State) (v : Level) : (s.busSetLevel v).pinOut = v := rfl
@[simp] theorem State.busSetLevel_inputs (s : State) (v : Level) : (s.busSetLevel v).inputs = s.inputs := rfl
@[simp] theorem State.busSetLevel_answers (s : State) (v : Level) : (s.busSetLevel v).answers = s.answers := rfl
@[simp] theorem State.busSetLevel_draws (s : State) (v : Level) : (s.busSetLevel v).draws = s.draws := rfl
@[simp] theorem State.busSetLevel_tBlk (s : State) (v : Level) : (s.busSetLevel v).tBlk = s.tBlk := rfl
@[simp] theorem State.busSetLevel_trace (s : State) (v : Level) : (s.busSetLevel v).trace = ⟨setlvlWord v, none⟩ :: s.trace := rfl

/-! ### State.busGetLevel -/

@[simp] theorem State.busGetLevel_cfg (s : State) : (s.busGetLevel).cfg = s.cfg := rfl
@[simp] theorem State.busGetLevel_fsm (s : State) : (s.busGetLevel).fsm = s.fsm := rfl
@[simp] theorem State.busGetLevel_smp (s : State) : (s.busGetLevel).smp = s.smp := rfl
@[simp] theorem State.busGetLevel_variant (s : State) : (s.busGetLevel).variant = s.variant := rfl
@[simp] theorem State.busGetLevel_busy (s : State) : (s.busGetLevel).busy = s.busy := rfl
@[simp] theorem State.busGetLevel_done (s : State) : (s.busGetLevel).done = s.done := rfl
@[simp] theorem State.busGetLevel_err (s : State) : (s.busGetLevel).err = s.err := rfl
@[simp] theorem State.busGetLevel_temp (s : State) : (s.busGetLevel).temp = s.temp := rfl
@[simp] theorem State.busGetLevel_hum (s : State) : (s.busGetLevel).hum = s.hum := rfl
@[simp] theorem State.busGetLevel_E (s : State) : (s.busGetLevel).E = s.E := rfl
@[simp] theorem State.busGetLevel_lowDur (s : State) : (s.busGetLevel).lowDur = s.lowDur := rfl
@[simp] theorem State.busGetLevel_highDur (s : State) : (s.busGetLevel).highDur = s.highDur := rfl
@[simp] theorem State.busGetLevel_i (s : State) : (s.busGetLevel).i = s.i := rfl
@[simp] theorem State.busGetLevel_frame (s : State) : (s.busGetLevel).frame = s.frame := rfl
@[simp] theorem State.busGetLevel_pinDir (s : State) : (s.busGetLevel).pinDir = s.pinDir := rfl
@[simp] theorem State.busGetLevel_pinOut (s : State) : (s.busGetLevel).pinOut = s.pinOut := rfl
@[simp] theorem State.busGetLevel_inputs (s : State) : (s.busGetLevel).inputs = s.inputs := rfl
@[simp] theorem State.busGetLevel_answers (s : State) : (s.busGetLevel).answers = s.answers.tail := rfl
@[simp] theorem State.busGetLevel_draws (s : State) : (s.busGetLevel).draws = s.draws + 1 := rfl
@[simp] theorem State.busGetLevel_tBlk (s : State) : (s.busGetLevel).tBlk = s.tBlk := rfl
@[simp] theorem State.busGetLevel_trace (s : State) : (s.busGetLevel).trace = ⟨getlvlWord, some s.lineLevel⟩ :: s.trace := rfl

/-! ### State.busDelay -/

@[simp] theorem State.busDelay_cfg (s : State) (n : BitVec 32) : (s.busDelay n).cfg = s.cfg := rfl
@[simp] theorem State.busDelay_fsm (s : State) (n : BitVec 32) : (s.busDelay n).fsm = s.fsm := rfl
@[simp] theorem State.busDelay_smp (s : State) (n : BitVec 32) : (s.busDelay n).smp = s.smp := rfl
@[simp] theorem State.busDelay_variant (s : State) (n : BitVec 32) : (s.busDelay n).variant = s.variant := rfl
@[simp] theorem State.busDelay_busy (s : State) (n : BitVec 32) : (s.busDelay n).busy = s.busy := rfl
@[simp] theorem State.busDelay_done (s : State) (n : BitVec 32) : (s.busDelay n).done = s.done := rfl
@[simp] theorem State.busDelay_err (s : State) (n : BitVec 32) : (s.busDelay n).err = s.err := rfl
@[simp] theorem State.busDelay_temp (s : State) (n : BitVec 32) : (s.busDelay n).temp = s.temp := rfl
@[simp] theorem State.busDelay_hum (s : State) (n : BitVec 32) : (s.busDelay n).hum = s.hum := rfl
@[simp] theorem State.busDelay_E (s : State) (n : BitVec 32) : (s.busDelay n).E = s.E := rfl
@[simp] theorem State.busDelay_lowDur (s : State) (n : BitVec 32) : (s.busDelay n).lowDur = s.lowDur := rfl
@[simp] theorem State.busDelay_highDur (s : State) (n : BitVec 32) : (s.busDelay n).highDur = s.highDur := rfl
@[simp] theorem State.busDelay_i (s : State) (n : BitVec 32) : (s.busDelay n).i = s.i := rfl
@[simp] theorem State.busDelay_frame (s : State) (n : BitVec 32) : (s.busDelay n).frame = s.frame := rfl
@[simp] theorem State.busDelay_pinDir (s : State) (n : BitVec 32) : (s.busDelay n).pinDir = s.pinDir := rfl
@[simp] theorem State.busDelay_pinOut (s : State) (n : BitVec 32) : (s.busDelay n).pinOut = s.pinOut := rfl
@[simp] theorem State.busDelay_inputs (s : State) (n : BitVec 32) : (s.busDelay n).inputs = s.inputs := rfl
@[simp] theorem State.busDelay_answers (s : State) (n : BitVec 32) : (s.busDelay n).answers = s.answers := rfl
@[simp] theorem State.busDelay_draws (s : State) (n : BitVec 32) : (s.busDelay n).draws = s.draws := rfl
@[simp] theorem State.busDelay_tBlk (s : State) (n : BitVec 32) : (s.busDelay n).tBlk = s.tBlk + n.toNat := rfl
@[simp] theorem State.busDelay_trace (s : State) (n : BitVec 32) : (s.busDelay n).trace = ⟨delayWord n, none⟩ :: s.trace := rfl

/-! ### State.finish -/

@[simp] theorem State.finish_cfg (s : State) : (s.finish).cfg = s.cfg := rfl
@[simp] theorem State.finish_fsm (s : State) : (s.finish).fsm = 0x00#5 := rfl
@[simp] theorem State.finish_smp (s : State) : (s.finish).smp = s.smp := rfl
@[simp] theorem State.finish_variant (s : State) : (s.finish).variant = s.variant := rfl
@[simp] theorem State.finish_busy (s : State) : (s.finish).busy = false := rfl
@[simp] theorem State.finish_done (s : State) : (s.finish).done = true := rfl
@[simp] theorem State.finish_err (s : State) : (s.finish).err = s.err := rfl
@[simp] theorem State.finish_temp (s : State) : (s.finish).temp = s.temp := rfl
@[simp] theorem State.finish_hum (s : State) : (s.finish).hum = s.hum := rfl
@[simp] theorem State.finish_E (s : State) : (s.finish).E = s.E := rfl
@[simp] theorem State.finish_lowDur (s : State) : (s.finish).lowDur = s.lowDur := rfl
@[simp] theorem State.finish_highDur (s : State) : (s.finish).highDur = s.highDur := rfl
@[simp] theorem State.finish_i (s : State) : (s.finish).i = s.i := rfl
@[simp] theorem State.finish_frame (s : State) : (s.finish).frame = s.frame := rfl
@[simp] theorem State.finish_pinDir (s : State) : (s.finish).pinDir = s.pinDir := rfl
@[simp] theorem State.finish_pinOut (s : State) : (s.finish).pinOut = s.pinOut := rfl
@[simp] theorem State.finish_inputs (s : State) : (s.finish).inputs = s.inputs := rfl
@[simp] theorem State.finish_answers (s : State) : (s.finish).answers = s.answers := rfl
@[simp] theorem State.finish_draws (s : State) : (s.finish).draws = s.draws := rfl
@[simp] theorem State.finish_tBlk (s : State) : (s.finish).tBlk = s.tBlk := rfl
@[simp] theorem State.finish_trace (s : State) : (s.finish).trace = s.trace := rfl

/-! ### State.acceptRead -/

@[simp] theorem State.acceptRead_cfg (s : State) (v : Variant) : (s.acceptRead v).cfg = s.cfg := rfl
@[simp] theorem State.acceptRead_fsm (s : State) (v : Variant) : (s.acceptRead v).fsm = 0x01#5 := rfl
@[simp] theorem State.acceptRead_smp (s : State) (v : Variant) : (s.acceptRead v).smp = false := rfl
@[simp] theorem State.acceptRead_variant (s : State) (v : Variant) : (s.acceptRead v).variant = v := rfl
@[simp] theorem State.acceptRead_busy (s : State) (v : Variant) : (s.acceptRead v).busy = true := rfl
@[simp] theorem State.acceptRead_done (s : State) (v : Variant) : (s.acceptRead v).done = false := rfl
@[simp] theorem State.acceptRead_err (s : State) (v : Variant) : (s.acceptRead v).err = .ok := rfl
@[simp] theorem State.acceptRead_temp (s : State) (v : Variant) : (s.acceptRead v).temp = 0#16 := rfl
@[simp] theorem State.acceptRead_hum (s : State) (v : Variant) : (s.acceptRead v).hum = 0#16 := rfl
@[simp] theorem State.acceptRead_E (s : State) (v : Variant) : (s.acceptRead v).E = 0#16 := rfl
@[simp] theorem State.acceptRead_lowDur (s : State) (v : Variant) : (s.acceptRead v).lowDur = 0#16 := rfl
@[simp] theorem State.acceptRead_highDur (s : State) (v : Variant) : (s.acceptRead v).highDur = 0#16 := rfl
@[simp] theorem State.acceptRead_i (s : State) (v : Variant) : (s.acceptRead v).i = 0#6 := rfl
@[simp] theorem State.acceptRead_frame (s : State) (v : Variant) : (s.acceptRead v).frame = [] := rfl
@[simp] theorem State.acceptRead_pinDir (s : State) (v : Variant) : (s.acceptRead v).pinDir = s.pinDir := rfl
@[simp] theorem State.acceptRead_pinOut (s : State) (v : Variant) : (s.acceptRead v).pinOut = s.pinOut := rfl
@[simp] theorem State.acceptRead_inputs (s : State) (v : Variant) : (s.acceptRead v).inputs = s.inputs := rfl
@[simp] theorem State.acceptRead_answers (s : State) (v : Variant) : (s.acceptRead v).answers = s.answers := rfl
@[simp] theorem State.acceptRead_draws (s : State) (v : Variant) : (s.acceptRead v).draws = s.draws := rfl
@[simp] theorem State.acceptRead_tBlk (s : State) (v : Variant) : (s.acceptRead v).tBlk = 0 := rfl
@[simp] theorem State.acceptRead_trace (s : State) (v : Variant) : (s.acceptRead v).trace = [] := rfl

/-! ### State.applyReset -/

@[simp] theorem State.applyReset_cfg (s : State) : (s.applyReset).cfg = s.cfg := rfl
@[simp] theorem State.applyReset_fsm (s : State) : (s.applyReset).fsm = State.reset.fsm := rfl
@[simp] theorem State.applyReset_smp (s : State) : (s.applyReset).smp = State.reset.smp := rfl
@[simp] theorem State.applyReset_variant (s : State) : (s.applyReset).variant = State.reset.variant := rfl
@[simp] theorem State.applyReset_busy (s : State) : (s.applyReset).busy = State.reset.busy := rfl
@[simp] theorem State.applyReset_done (s : State) : (s.applyReset).done = State.reset.done := rfl
@[simp] theorem State.applyReset_err (s : State) : (s.applyReset).err = State.reset.err := rfl
@[simp] theorem State.applyReset_temp (s : State) : (s.applyReset).temp = State.reset.temp := rfl
@[simp] theorem State.applyReset_hum (s : State) : (s.applyReset).hum = State.reset.hum := rfl
@[simp] theorem State.applyReset_E (s : State) : (s.applyReset).E = State.reset.E := rfl
@[simp] theorem State.applyReset_lowDur (s : State) : (s.applyReset).lowDur = State.reset.lowDur := rfl
@[simp] theorem State.applyReset_highDur (s : State) : (s.applyReset).highDur = State.reset.highDur := rfl
@[simp] theorem State.applyReset_i (s : State) : (s.applyReset).i = State.reset.i := rfl
@[simp] theorem State.applyReset_frame (s : State) : (s.applyReset).frame = State.reset.frame := rfl
@[simp] theorem State.applyReset_pinDir (s : State) : (s.applyReset).pinDir = State.reset.pinDir := rfl
@[simp] theorem State.applyReset_pinOut (s : State) : (s.applyReset).pinOut = State.reset.pinOut := rfl
@[simp] theorem State.applyReset_inputs (s : State) : (s.applyReset).inputs = s.inputs := rfl
@[simp] theorem State.applyReset_answers (s : State) : (s.applyReset).answers = s.answers := rfl
@[simp] theorem State.applyReset_draws (s : State) : (s.applyReset).draws = s.draws := rfl
@[simp] theorem State.applyReset_tBlk (s : State) : (s.applyReset).tBlk = State.reset.tBlk := rfl
@[simp] theorem State.applyReset_trace (s : State) : (s.applyReset).trace = State.reset.trace := rfl

/-! ### State.consume -/

@[simp] theorem State.consume_cfg (s : State) : (s.consume).cfg = s.cfg := rfl
@[simp] theorem State.consume_fsm (s : State) : (s.consume).fsm = s.fsm := rfl
@[simp] theorem State.consume_smp (s : State) : (s.consume).smp = s.smp := rfl
@[simp] theorem State.consume_variant (s : State) : (s.consume).variant = s.variant := rfl
@[simp] theorem State.consume_busy (s : State) : (s.consume).busy = s.busy := rfl
@[simp] theorem State.consume_done (s : State) : (s.consume).done = s.done := rfl
@[simp] theorem State.consume_err (s : State) : (s.consume).err = s.err := rfl
@[simp] theorem State.consume_temp (s : State) : (s.consume).temp = s.temp := rfl
@[simp] theorem State.consume_hum (s : State) : (s.consume).hum = s.hum := rfl
@[simp] theorem State.consume_E (s : State) : (s.consume).E = s.E := rfl
@[simp] theorem State.consume_lowDur (s : State) : (s.consume).lowDur = s.lowDur := rfl
@[simp] theorem State.consume_highDur (s : State) : (s.consume).highDur = s.highDur := rfl
@[simp] theorem State.consume_i (s : State) : (s.consume).i = s.i := rfl
@[simp] theorem State.consume_frame (s : State) : (s.consume).frame = s.frame := rfl
@[simp] theorem State.consume_pinDir (s : State) : (s.consume).pinDir = s.pinDir := rfl
@[simp] theorem State.consume_pinOut (s : State) : (s.consume).pinOut = s.pinOut := rfl
@[simp] theorem State.consume_inputs (s : State) : (s.consume).inputs = s.inputs.tail := rfl
@[simp] theorem State.consume_answers (s : State) : (s.consume).answers = s.answers := rfl
@[simp] theorem State.consume_draws (s : State) : (s.consume).draws = s.draws := rfl
@[simp] theorem State.consume_tBlk (s : State) : (s.consume).tBlk = s.tBlk := rfl
@[simp] theorem State.consume_trace (s : State) : (s.consume).trace = s.trace := rfl

/-! ### State.raise, one equation per error -/

@[simp] theorem State.raise_timeout (s : State) : s.raise .timeout = { s with err := .timeout, fsm := 0x0D#5 } := rfl

@[simp] theorem State.raise_checksumMismatch (s : State) :
    s.raise .checksumMismatch = { s with err := .checksumMismatch }.finish := rfl

@[simp] theorem State.consume_nil (s : State) (h : s.inputs = []) : s.consume = s := by
  cases s; simp_all [State.consume]

theorem State.consume_cons (s : State) (x : Input) (r : List Input) (h : s.inputs = x :: r) :
    s.consume = { s with inputs := r } := by
  simp [State.consume, h]

end Sys2Proof.Machine
end

