-- ==== Sys2Proof/Laws/Step.lean ====
section
/-! SUPPORT. What each shared operation can do, once: packing a bit, the poll, a received bit, the step. -/

namespace Sys2Proof.Machine

/-- R94: only bit `7 - m` of the byte changes. -/
theorem packBit_getLsbD (old : Byte) (m : Nat) (bit : Bool) (hm : m < 8) (k : Nat) (hk : k < 8) :
    (packBit old m bit).getLsbD k = if k = 7 - m then bit else old.getLsbD k := by
  revert old bit
  have hm' : m = 0 ∨ m = 1 ∨ m = 2 ∨ m = 3 ∨ m = 4 ∨ m = 5 ∨ m = 6 ∨ m = 7 := by omega
  have hk' : k = 0 ∨ k = 1 ∨ k = 2 ∨ k = 3 ∨ k = 4 ∨ k = 5 ∨ k = 6 ∨ k = 7 := by omega
  rcases hm' with rfl | rfl | rfl | rfl | rfl | rfl | rfl | rfl <;>
    rcases hk' with rfl | rfl | rfl | rfl | rfl | rfl | rfl | rfl <;>
    intro old bit <;> cases bit <;> simp [packBit, bitOf]

/-- R94: storing stream bit `i` changes that bit of the stream and no other. -/
theorem streamBit_storeBit (f : Memory) (hf : f.wf = true) (i : Nat) (bit : Bool) (j : Nat) :
    streamBit (storeBit f i bit) j = if j = i then bit else streamBit f j := by
  unfold streamBit storeBit
  by_cases hb : j / 8 = i / 8
  · rw [hb, Memory.read_write_same f _ _ hf, packBit_getLsbD _ _ _ (by omega) _ (by omega)]
    by_cases hji : j = i
    · subst hji; simp
    · rw [if_neg (by omega), if_neg hji]
  · rw [Memory.read_write_other _ _ _ _ hb, if_neg (by rintro rfl; exact hb rfl)]

/-- What a poll step answers (R73): a timeout, a delay, a sample that does not match, or the state's own continuation. -/
theorem poll_cases (q : PollParams) (k : State → Result) (s : State) :
    (s.smp = false ∧ q.budget ≤ s.E ∧ poll q k s = .next { s with err := .timeout, fsm := 0x0D#5 }) ∨
    (s.smp = false ∧ s.E < q.budget ∧ poll q k s = .next { s.busDelay (s.cfg.pG.zeroExtend 32) with smp := true }) ∨
    (s.smp = true ∧ s.lineLevel ≠ q.expected ∧ poll q k s = .next { s.busGetLevel with E := s.E + s.cfg.pG, smp := false }) ∨
    (s.smp = true ∧ s.lineLevel = q.expected ∧ poll q k s = k s.busGetLevel) := by
  unfold poll
  by_cases h : s.smp = true
  · by_cases hl : s.lineLevel = q.expected
    · exact .inr (.inr (.inr ⟨h, hl, by simp [h, hl]⟩))
    · exact .inr (.inr (.inl ⟨h, hl, by simp [h, hl]⟩))
  · have h' : s.smp = false := by simpa using h
    by_cases hb : q.budget ≤ s.E
    · exact .inl ⟨h', hb, by simp [h', hb]⟩
    · exact .inr (.inl ⟨h', by simpa using hb, by simp [h', hb]⟩)

/-- A received bit (R91): stored while `i` is at most 39; above that the byte does not exist. -/
theorem bitReceived_cases (t : State) :
    (t.i.toNat < 40 ∧ bitReceived t = .next (afterBit t)) ∨
    (40 ≤ t.i.toNat ∧ bitReceived t = .fault (.frameAddress (t.i.toNat / 8))) := by
  unfold bitReceived
  split
  · exact .inl ⟨by omega, rfl⟩
  · exact .inr ⟨by omega, rfl⟩

theorem guardErr_of_ne (s : State) (k : Result) (h : s.err ≠ .invalidArgument) : guardErr s k = k := by
  unfold guardErr
  split
  · contradiction
  all_goals rfl

/-- A guarded outcome is a next state only where `err` is not 11. -/
theorem guardErr_next (s : State) (k : Result) (t : State) (h : guardErr s k = .next t) : s.err ≠ .invalidArgument ∧ k = .next t := by
  unfold guardErr at h
  split at h
  · cases h
  all_goals exact ⟨by simp_all, h⟩

theorem guardFsm_of_legal (s : State) (k : Result) (h : s.fsm.toNat ≤ 0x10) : guardFsm s k = k := if_pos h

/-- Everything `guardFsm` can do when it answers. -/
theorem guardFsm_next (s : State) (k : Result) (t : State) (h : guardFsm s k = .next t) : s.fsm.toNat ≤ 0x10 ∧ k = .next t := by
  unfold guardFsm at h
  split at h
  · exact ⟨by assumption, h⟩
  · cases h

/-- A step in a state whose `err` is not 11, with a reserved code in `fsm`, faults unless it is a reset (R20, U8). -/
theorem step_reserved (s : State) (he : s.err ≠ .invalidArgument) (hf : 0x11 ≤ s.fsm.toNat) (hn : s.nextInstr ≠ none) :
    step s = .fault (.reservedFsm s.fsm) := by
  unfold step
  split
  · contradiction
  · rw [guardErr_of_ne s _ he, guardFsm, if_neg (by omega)]

/-- A step that answers is a reset, or the execution of the next operation in a state whose `err` is not 11 and
whose `fsm` is legal. -/
theorem step_next (s t : State) (h : step s = .next t) :
    (s.nextInstr = none ∧ t = s.consume.applyReset) ∨
    (∃ x, s.nextInstr = some x ∧ s.err ≠ .invalidArgument ∧ s.fsm.toNat ≤ 0x10 ∧ exec x s.consume = .next t) := by
  unfold step at h
  split at h
  · rename_i hn
    exact .inl ⟨hn, by injection h with h; exact h.symm⟩
  · rename_i x hn
    obtain ⟨h1, h2⟩ := guardErr_next s _ t h
    obtain ⟨h3, h4⟩ := guardFsm_next s _ t h2
    exact .inr ⟨x, hn, h1, h3, h4⟩

/-- The next operation is a CMD word or the FSM state in `fsm`. -/
theorem nextInstr_some (s : State) (x : Instr) (h : s.nextInstr = some x) : x = decodeFsm s.fsm ∨ ∃ w, x = decodeCmd w := by
  unfold State.nextInstr at h
  split at h
  · exact .inl (by injection h with h; exact h.symm)
  · exact .inr ⟨_, by injection h with h; exact h.symm⟩
  · cases h

/-- A CMD word is a READ, or changes nothing. -/
theorem exec_decodeCmd (w : BitVec 8) (s : State) :
    (exec (decodeCmd w) s = .next s) ∨ (∃ v, decodeCmd w = .read v ∧ s.fsm = 0x00#5 ∧ exec (decodeCmd w) s = .next (s.acceptRead v)) := by
  unfold decodeCmd
  split
  · exact .inl rfl
  · split
    · by_cases h : s.fsm = 0x00#5
      · exact .inr ⟨_, rfl, h, by simp [exec, execRead, h]⟩
      · exact .inl (by simp [exec, execRead, h])
    · exact .inl rfl

/-- R53: a request word as a number. -/
theorem busWord_toNat (op : BitVec 2) (arg : BitVec 32) : (busWord op arg).toNat = op.toNat * 4294967296 + arg.toNat := by
  have h : (busWord op arg).toNat = op.toNat <<< 32 ||| arg.toNat := BitVec.toNat_append op arg
  rw [h, Nat.shiftLeft_eq, Nat.mul_comm, ← Nat.two_pow_add_eq_or_of_lt arg.isLt, Nat.mul_comm]

/-- R54: the word of `DELAY n`. -/
theorem delayWord_toNat (n : BitVec 32) : (delayWord n).toNat = 12884901888 + n.toNat := by
  simp [delayWord, busWord_toNat]

/-- R105: VariantB's magnitude as a number. -/
theorem magnitude_toNat (msb lsb : Byte) :
    (((0#1 ++ msb.extractLsb' 0 7) ++ lsb : BitVec 16)).toNat = msb.toNat % 128 * 256 + lsb.toNat := by
  have h0 : (0#1 ++ msb.extractLsb' 0 7 : BitVec 8).toNat = msb.toNat % 128 := by revert msb; decide
  have h : (((0#1 ++ msb.extractLsb' 0 7) ++ lsb : BitVec 16)).toNat =
      (0#1 ++ msb.extractLsb' 0 7 : BitVec 8).toNat <<< 8 ||| lsb.toNat := BitVec.toNat_append _ lsb
  rw [h, h0, Nat.shiftLeft_eq, Nat.mul_comm, ← Nat.two_pow_add_eq_or_of_lt lsb.isLt, Nat.mul_comm]

/-- One more step of a run that has a next state. -/
theorem run_succ (n : Nat) (s t : State) (h : step s = .next t) : core.run (n + 1) s = core.run n t := by
  have h' : core.step s = .next t := h
  simp only [Host.Core.run, h']

/-- A run of `m + n` steps goes on from where a run of `m` steps arrives. -/
theorem run_add (m n : Nat) (s t : State) (h : core.run m s = .next t) : core.run (m + n) s = core.run n t := by
  induction m generalizing s with
  | zero =>
    cases h
    rw [Nat.zero_add]
  | succ m ih =>
    simp only [Host.Core.run] at h
    split at h
    · rename_i u hu
      rw [Nat.succ_add, run_succ (m + n) s u hu]
      exact ih u h
    all_goals cases h

/-- R55: the codes from 0x11 on are RESERVED_FSM. -/
theorem decodeFsm_reserved (c : BitVec 5) (h : 0x11 ≤ c.toNat) : decodeFsm c = .reservedFsm c := by
  revert c
  decide

/-- The FSM's own operation answers the same with and without the guard: at a reserved code both fault. -/
theorem guardFsm_exec (s u : State) : guardFsm s (exec (decodeFsm s.fsm) u) = exec (decodeFsm s.fsm) u := by
  unfold guardFsm
  split
  · rfl
  · rw [decodeFsm_reserved s.fsm (by omega)]
    rfl

/-- A step that nothing from the outside takes part in runs the FSM state in `fsm`. -/
theorem step_quiet (s : State) (hi : s.inputs = []) (he : s.err ≠ .invalidArgument) : step s = exec (decodeFsm s.fsm) s := by
  unfold step
  simp [State.nextInstr, hi, guardErr_of_ne s _ he, guardFsm_exec]

end Sys2Proof.Machine
end

