-- ==== Sys2Proof/Laws/Moves.lean ====
section
/-! SUPPORT. Everything one step of the machine can do, said once: the moves of the FSM, and the step as a reset, a CMD word or a move. -/

namespace Sys2Proof.Machine

/-- The four moves of a poll state (R73); `k` is what its success makes of the state after the sample. -/
inductive PollMove (q : PollParams) (k : State → State) (u : State) : State → Prop where
  | timeout : u.smp = false → q.budget ≤ u.E → PollMove q k u { u with err := .timeout, fsm := 0x0D#5 }
  | delay : u.smp = false → u.E < q.budget → PollMove q k u { u.busDelay (u.cfg.pG.zeroExtend 32) with smp := true }
  | miss : u.smp = true → u.lineLevel ≠ q.expected → PollMove q k u { u.busGetLevel with E := u.E + u.cfg.pG, smp := false }
  | hit : u.smp = true → u.lineLevel = q.expected → PollMove q k u (k u.busGetLevel)

/-- The moves of the FSM (R55), by state. -/
inductive FsmMove (u : State) : State → Prop where
  | idle : u.fsm = 0x00#5 → FsmMove u (u.goto 0x00#5)
  | initDir : u.fsm = 0x01#5 → FsmMove u ((u.busSetDir .outputOpenDrain).goto 0x02#5)
  | initLvl : u.fsm = 0x02#5 → FsmMove u ((u.busSetLevel true).goto 0x03#5)
  | aDir : u.fsm = 0x03#5 → FsmMove u ((u.busSetDir .outputOpenDrain).goto 0x04#5)
  | aLow : u.fsm = 0x04#5 → FsmMove u ((u.busSetLevel false).goto 0x05#5)
  | aWait : u.fsm = 0x05#5 → FsmMove u ((u.busDelay u.cfg.pTStart).goto 0x06#5)
  | aRel : u.fsm = 0x06#5 → FsmMove u ((u.busSetLevel true).goto 0x07#5)
  | bDir : u.fsm = 0x07#5 → FsmMove u ((u.busSetDir .input).enterPoll 0x08#5)
  | bPoll (t : State) : u.fsm = 0x08#5 → PollMove (bPollParams u.cfg) (fun v => v.enterPoll 0x09#5) u t → FsmMove u t
  | cPoll (t : State) : u.fsm = 0x09#5 → PollMove (cPollParams u.cfg) (fun v => v.enterPoll 0x0A#5) u t → FsmMove u t
  | dPoll (t : State) : u.fsm = 0x0A#5 → PollMove (dPollParams u.cfg) (fun v => v.enterPoll 0x0B#5) u t → FsmMove u t
  | bitLow (t : State) : u.fsm = 0x0B#5 →
      PollMove (bitLowParams u.cfg) (fun v => State.enterPoll { v with lowDur := v.E } 0x0C#5) u t → FsmMove u t
  | bitHigh (t : State) : u.fsm = 0x0C#5 → PollMove (bitHighParams u.cfg) afterBit u t →
      (u.smp = true → u.lineLevel = false → u.i.toNat < 40) → FsmMove u t
  | relDir : u.fsm = 0x0D#5 → FsmMove u ((u.busSetDir .outputOpenDrain).goto 0x0E#5)
  | relLvlOk : u.fsm = 0x0E#5 → u.err = .ok → FsmMove u ((u.busSetLevel true).goto 0x0F#5)
  | relLvlErr : u.fsm = 0x0E#5 → u.err ≠ .ok → FsmMove u (u.busSetLevel true).finish
  | validateOk : u.fsm = 0x0F#5 → checksum u.frame = u.frame.read 4 → FsmMove u (u.goto 0x10#5)
  | validateErr : u.fsm = 0x0F#5 → checksum u.frame ≠ u.frame.read 4 → FsmMove u { u with err := .checksumMismatch }.finish
  | decode : u.fsm = 0x10#5 →
      FsmMove u
        (State.finish
          { u with
            temp := decodeField u.variant (u.frame.read 2) (u.frame.read 3)
            hum := decodeField u.variant (u.frame.read 0) (u.frame.read 1) })

/-- A poll whose continuation always answers makes one of the four moves. -/
theorem poll_move (q : PollParams) (k : State → State) (u t : State) (h : poll q (fun v => .next (k v)) u = .next t) :
    PollMove q k u t := by
  rcases poll_cases q (fun v => .next (k v)) u with ⟨a, b, e⟩ | ⟨a, b, e⟩ | ⟨a, b, e⟩ | ⟨a, b, e⟩ <;> rw [h] at e <;> cases e
  · exact .timeout a b
  · exact .delay a b
  · exact .miss a b
  · exact .hit a b

/-- BIT_HIGH's poll makes one of the four moves, the last one only with `i` at most 39. -/
theorem bitHigh_move (u t : State) (h : execBitHigh u = .next t) :
    PollMove (bitHighParams u.cfg) afterBit u t ∧ (u.smp = true → u.lineLevel = false → u.i.toNat < 40) := by
  unfold execBitHigh at h
  rcases poll_cases (bitHighParams u.cfg) bitReceived u with ⟨a, b, e⟩ | ⟨a, b, e⟩ | ⟨a, b, e⟩ | ⟨a, b, e⟩ <;> rw [h] at e
  · cases e
    exact ⟨.timeout a b, fun hs => by simp [a] at hs⟩
  · cases e
    exact ⟨.delay a b, fun hs => by simp [a] at hs⟩
  · cases e
    exact ⟨.miss a b, fun _ hl => absurd hl b⟩
  · rcases bitReceived_cases u.busGetLevel with ⟨c, d⟩ | ⟨c, d⟩ <;> rw [d] at e <;> cases e
    exact ⟨.hit a b, fun _ _ => c⟩

/-- A code is one of the 17 legal ones, or reserved (R55). -/
theorem code_cases (c : BitVec 5) :
    c = 0x00#5 ∨ c = 0x01#5 ∨ c = 0x02#5 ∨ c = 0x03#5 ∨ c = 0x04#5 ∨ c = 0x05#5 ∨ c = 0x06#5 ∨ c = 0x07#5 ∨ c = 0x08#5 ∨
      c = 0x09#5 ∨ c = 0x0A#5 ∨ c = 0x0B#5 ∨ c = 0x0C#5 ∨ c = 0x0D#5 ∨ c = 0x0E#5 ∨ c = 0x0F#5 ∨ c = 0x10#5 ∨
      (0x11 ≤ c.toNat ∧ decodeFsm c = .reservedFsm c) := by
  revert c
  decide

/-- What the FSM's step can do. -/
theorem fsm_move (u t : State) (h : exec (decodeFsm u.fsm) u = .next t) : FsmMove u t := by
  rcases code_cases u.fsm with c | c | c | c | c | c | c | c | c | c | c | c | c | c | c | c | c | ⟨_, c⟩
  case inr.inr.inr.inr.inr.inr.inr.inr.inr.inr.inr.inr.inr.inr.inr.inr.inr =>
    rw [c] at h
    cases h
  all_goals rw [c] at h
  · cases h; exact .idle c
  · cases h; exact .initDir c
  · cases h; exact .initLvl c
  · cases h; exact .aDir c
  · cases h; exact .aLow c
  · cases h; exact .aWait c
  · cases h; exact .aRel c
  · cases h; exact .bDir c
  · exact .bPoll t c (poll_move _ (fun v => v.enterPoll 0x09#5) u t h)
  · exact .cPoll t c (poll_move _ (fun v => v.enterPoll 0x0A#5) u t h)
  · exact .dPoll t c (poll_move _ (fun v => v.enterPoll 0x0B#5) u t h)
  · exact .bitLow t c (poll_move _ (fun v => State.enterPoll { v with lowDur := v.E } 0x0C#5) u t h)
  · have m := bitHigh_move u t h
    exact .bitHigh t c m.1 m.2
  · cases h; exact .relDir c
  · have e := (guardErr_next (u.busSetLevel true) _ t h).2
    by_cases ho : u.err = .ok
    · rw [if_pos (by simpa using ho)] at e
      cases e; exact .relLvlOk c ho
    · rw [if_neg (by simpa using ho)] at e
      cases e; exact .relLvlErr c ho
  · have e : Host.Outcome.next (if checksum u.frame = u.frame.read 4 then u.goto 0x10#5 else u.raise .checksumMismatch) = .next t := h
    split at e
    · cases e; exact .validateOk c (by assumption)
    · cases e; exact .validateErr c (by assumption)
  · cases h; exact .decode c

/-- Everything a step that answers can do: a reset; an ignored CMD word; a READ accepted in IDLE; a move of the FSM. -/
theorem step_moves (s t : State) (h : step s = .next t) :
    (s.nextInstr = none ∧ t = s.consume.applyReset) ∨
    (s.err ≠ .invalidArgument ∧
      (t = s.consume ∨ (s.fsm = 0x00#5 ∧ ∃ v, s.nextInstr = some (.read v) ∧ t = s.consume.acceptRead v) ∨ FsmMove s.consume t)) := by
  rcases step_next s t h with hr | ⟨x, hx, he, _, hn⟩
  · exact .inl hr
  · refine .inr ⟨he, ?_⟩
    rcases nextInstr_some s x hx with rfl | ⟨w, rfl⟩
    · exact .inr (.inr (fsm_move s.consume t hn))
    · rcases exec_decodeCmd w s.consume with e | ⟨v, hv, hf, e⟩ <;> rw [hn] at e <;> cases e
      · exact .inl rfl
      · exact .inr (.inl ⟨hf, v, hv ▸ hx, rfl⟩)

end Sys2Proof.Machine
end

