-- ==== Sys2Proof/Laws/PerInstr.lean ====
section
/-! SUPPORT. Family RowMatch: the word of every well-formed instruction has the bits its row of spec/opcode_table.json fixes. -/

namespace Sys2Proof.Laws.RowMatch

/-- The encoded word, masked by the row's mask, is the row's match. -/
def Statement (x : Instr) : Prop := x.wf = true → wordBits (encode x) &&& (tableRow x).mask = (tableRow x).pattern

theorem read (v : Variant) : Statement (.read v) := by cases v <;> intro _ <;> decide

theorem nocmd (x : BitVec 7) : Statement (.nocmd x) := by
  intro _
  revert x
  decide

theorem reservedCmd (v : Variant) (r : BitVec 6) : Statement (.reservedCmd v r) := by
  intro _
  cases v <;> revert r <;> decide

theorem setdir (m : PinDir) : Statement (.setdir m) := by cases m <;> intro _ <;> decide

theorem setlvl (v : Level) : Statement (.setlvl v) := by cases v <;> intro _ <;> decide

theorem getlvl : Statement .getlvl := fun _ => by decide

theorem delay (n : BitVec 32) : Statement (.delay n) := by
  intro _
  have h : (delayWord n &&& 0x300000000#34) = 0x300000000#34 := by
    apply BitVec.eq_of_getLsbD_eq
    intro j hj
    have e : ∀ j < 34, (0x300000000#34).getLsbD j = (decide (j = 32) || decide (j = 33)) := by decide
    rw [BitVec.getLsbD_and, e j hj]
    have top : (delayWord n).getLsbD j = if j < 32 then n.getLsbD j else (3#2).getLsbD (j - 32) :=
      BitVec.getLsbD_append
    rw [top]
    by_cases h2 : j = 32
    · subst h2; rfl
    · by_cases h3 : j = 33
      · subst h3; rfl
      · simp [h2, h3]
  have := congrArg BitVec.toNat h
  simpa [wordBits, encode, tableRow] using this

theorem idle : Statement .idle := fun _ => by decide

theorem initDir : Statement .initDir := fun _ => by decide

theorem initLvl : Statement .initLvl := fun _ => by decide

theorem aDir : Statement .aDir := fun _ => by decide

theorem aLow : Statement .aLow := fun _ => by decide

theorem aWait : Statement .aWait := fun _ => by decide

theorem aRel : Statement .aRel := fun _ => by decide

theorem bDir : Statement .bDir := fun _ => by decide

theorem bPoll : Statement .bPoll := fun _ => by decide

theorem cPoll : Statement .cPoll := fun _ => by decide

theorem dPoll : Statement .dPoll := fun _ => by decide

theorem bitLow : Statement .bitLow := fun _ => by decide

theorem bitHigh : Statement .bitHigh := fun _ => by decide

theorem relDir : Statement .relDir := fun _ => by decide

theorem relLvl : Statement .relLvl := fun _ => by decide

theorem validate : Statement .validate := fun _ => by decide

theorem decode : Statement .decode := fun _ => by decide

theorem reservedFsm (c : BitVec 5) : Statement (.reservedFsm c) := by
  revert c
  unfold Statement
  decide

end Sys2Proof.Laws.RowMatch
end

