-- ==== Sys2Proof/Tests/Slice0.lean ====
section
/-! SUPPORT. The model's own tests. Expected values are the vectors of spec/95_test_vectors.md (named at each test) or the rule's own
examples; the witnesses show that the hypotheses of the statements can be met. -/

namespace Sys2Proof.Tests

open Sys2Proof Sys2Proof.Machine

/-! ### WellFormed -/

theorem test_wf_refuses_reserved_cmd_without_reserved_bits : (Instr.reservedCmd .variantA 0#6).wf = false := by decide

theorem test_wf_refuses_reserved_fsm_at_a_legal_code :
    (Instr.reservedFsm 0x10#5).wf = false ∧ (Instr.reservedFsm 0x03#5).wf = false := by decide

theorem test_wf_accepts_the_edges :
    (Instr.reservedCmd .variantB 1#6).wf = true ∧ (Instr.reservedFsm 0x11#5).wf = true ∧ (Instr.reservedFsm 0x1F#5).wf = true := by
  decide

/-! ### Decoding: every constructor, by a word written out from the encoding tables (R49, R53, R55; 95 L2 §1) -/

theorem test_decode_cmd_words :
    decodeCmd 0b00000001#8 = .read .variantA ∧ decodeCmd 0b00000011#8 = .read .variantB ∧
    decodeCmd 0b00000000#8 = .nocmd 0b0000000#7 ∧ decodeCmd 0b00000010#8 = .nocmd 0b0000001#7 ∧
    decodeCmd 0b10000000#8 = .nocmd 0b1000000#7 ∧ decodeCmd 0b00000101#8 = .reservedCmd .variantA 0b000001#6 ∧
    decodeCmd 0b11111111#8 = .reservedCmd .variantB 0b111111#6 := by decide

theorem test_decode_bus_words :
    decodeBus 0b00_00000000000000000000000000000000#34 = .ok (.setdir .input) ∧
    decodeBus 0b00_00000000000000000000000000000001#34 = .ok (.setdir .outputOpenDrain) ∧
    decodeBus 0b01_00000000000000000000000000000000#34 = .ok (.setlvl false) ∧
    decodeBus 0b01_00000000000000000000000000000001#34 = .ok (.setlvl true) ∧
    decodeBus 0b10_00000000000000000000000000000000#34 = .ok .getlvl ∧
    decodeBus 0b11_00000000000000000100111000100000#34 = .ok (.delay 20000#32) := by decide

theorem test_decode_bus_refuses_other_arguments :
    decodeBus 0x080000000#34 = .error .setdirArg ∧ decodeBus 0x100000003#34 = .error .setlvlArg ∧
    decodeBus 0x200000001#34 = .error .getlvlArg := by decide

theorem test_decode_handshake_codes :
    decodeFsm 0b00000#5 = .idle ∧ decodeFsm 0b00001#5 = .initDir ∧ decodeFsm 0b00010#5 = .initLvl ∧ decodeFsm 0b00011#5 = .aDir ∧
    decodeFsm 0b00100#5 = .aLow ∧ decodeFsm 0b00101#5 = .aWait ∧ decodeFsm 0b00110#5 = .aRel ∧ decodeFsm 0b00111#5 = .bDir ∧
    decodeFsm 0b01000#5 = .bPoll ∧ decodeFsm 0b01001#5 = .cPoll ∧ decodeFsm 0b01010#5 = .dPoll := by decide

theorem test_decode_other_codes :
    decodeFsm 0b01011#5 = .bitLow ∧ decodeFsm 0b01100#5 = .bitHigh ∧ decodeFsm 0b01101#5 = .relDir ∧ decodeFsm 0b01110#5 = .relLvl ∧
    decodeFsm 0b01111#5 = .validate ∧ decodeFsm 0b10000#5 = .decode ∧ decodeFsm 0b10001#5 = .reservedFsm 0b10001#5 ∧
    decodeFsm 0b11111#5 = .reservedFsm 0b11111#5 := by decide

theorem test_table_words :
    decodeTableWord 8 0x0B = some .bitLow ∧ decodeTableWord 8 0x81 = some (.reservedCmd .variantA 0b100000#6) ∧
    decodeTableWord 8 0x20 = some (.nocmd 0b0010000#7) ∧ decodeTableWord 40 0x200000000 = some .getlvl ∧
    decodeTableWord 40 0x000000002 = none := by decide

/-! ### Small states and a look at the outcome -/

/-- What holds of the next state; false of a stop. -/
def after (r : Result) (p : State → Bool) : Bool :=
  match r with
  | .next t => p t
  | .fault _ | .refused _ => false

/-- A block in FSM state `c` of a `READ B`, released. -/
def at_ (c : BitVec 5) : State := { State.reset with fsm := c, busy := true, variant := .variantB }

/-- A poll state, on the input pin. -/
def polling (c : BitVec 5) (e : BitVec 16) (smp : Bool) (answers : List Level) : State :=
  { at_ c with pinDir := .input, E := e, smp := smp, answers := answers }

/-- 02 8C 01 5F EE (95 S7, P1). -/
def frameP1 : Memory := [(0, 0x02#8), (1, 0x8C#8), (2, 0x01#8), (3, 0x5F#8), (4, 0xEE#8)]

/-- IDLE after a timeout, as in 95 H5. -/
def timedOut : State := { State.reset with done := true, err := .timeout, frame := [(0, 0x28#8)], E := 40#16 }

/-! ### Host command (95 L2 §2) -/

theorem test_read_b_after_reset :
    after (step { State.reset with inputs := [.cmd 0x03#8] }) (fun t =>
      t.fsm == 0x01#5 && t.variant == .variantB && t.busy && !t.done && t.err == .ok && t.pinDir == .outputOpenDrain && t.pinOut
        && t.statusWord == 0x01#8) = true := by decide

theorem test_read_clears_the_last_read :
    after (step { timedOut with inputs := [.cmd 0x01#8] }) (fun t =>
      t.variant == .variantA && t.busy && !t.done && t.err == .ok && t.frame.read 0 == 0#8 && t.E == 0#16 && t.fsm == 0x01#5)
      = true := by decide

theorem test_read_in_b_poll_is_ignored :
    after (step { polling 0x08#5 6#16 true [] with inputs := [.cmd 0x01#8] }) (fun t => t == polling 0x08#5 6#16 true []) = true := by
  decide

theorem test_nocmd_and_reserved_change_nothing :
    after (step { timedOut with inputs := [.cmd 0x00#8] }) (fun t => t == timedOut && t.statusWord == 0x06#8) = true ∧
    after (step { timedOut with inputs := [.cmd 0x07#8] }) (fun t => t == timedOut) = true := by decide

theorem test_result_by_status :
    State.reset.result = .ok .pending ∧ timedOut.result = .ok .errTimeout ∧
    { timedOut with err := .checksumMismatch }.result = .ok .errChecksumMismatch ∧
    { timedOut with err := .ok, temp := 351#16, hum := 652#16 }.result = .ok (.ok 351#16 652#16) := ⟨rfl, rfl, rfl, rfl⟩

/-- 95 L2 §1, STATUS words. -/
theorem test_status_words :
    State.reset.statusWord = 0x00#8 ∧ { at_ 0x0D#5 with err := .timeout }.statusWord = 0x05#8 ∧
    { timedOut with err := .checksumMismatch }.statusWord = 0x0A#8 ∧ { timedOut with err := .invalidArgument }.statusWord = 0x0E#8 := by
  decide

/-! ### Bus requests and the start pulse (95 L2 §3) -/

theorem test_bus_requests :
    after (exec (.setdir .input) State.reset) (fun t => t.pinDir == .input && t.trace == [⟨0x000000000#34, none⟩]) = true ∧
    after (exec (.setlvl false) State.reset) (fun t => !t.pinOut && t.trace == [⟨0x100000000#34, none⟩]) = true ∧
    after (exec .getlvl { State.reset with answers := [true, false] }) (fun t =>
      t.answers == [false] && t.trace == [⟨0x200000000#34, some true⟩]) = true ∧
    after (exec (.delay 20000#32) State.reset) (fun t => t.tBlk == 20000 && t.trace == [⟨0x300004E20#34, none⟩]) = true := by decide

theorem test_idle_rests : after (step State.reset) (fun t => t == State.reset) = true := by decide

theorem test_init_states :
    after (step (at_ 0x01#5)) (fun t => t.fsm == 0x02#5 && t.pinDir == .outputOpenDrain && t.trace == [⟨0x000000001#34, none⟩]) = true ∧
    after (step (at_ 0x02#5)) (fun t => t.fsm == 0x03#5 && t.pinOut && t.trace == [⟨0x100000001#34, none⟩]) = true := by decide

theorem test_a_states :
    after (step (at_ 0x03#5)) (fun t => t.fsm == 0x04#5 && t.trace == [⟨0x000000001#34, none⟩]) = true ∧
    after (step (at_ 0x04#5)) (fun t => t.fsm == 0x05#5 && !t.pinOut && t.drive == .pullsLow) = true ∧
    after (step (at_ 0x05#5)) (fun t => t.fsm == 0x06#5 && t.tBlk == 20000 && t.trace == [⟨0x300004E20#34, none⟩]) = true ∧
    after (step { at_ 0x06#5 with pinOut := false }) (fun t => t.fsm == 0x07#5 && t.drive == .releases) = true := by decide

theorem test_b_dir :
    after (step { at_ 0x07#5 with E := 9#16 }) (fun t =>
      t.fsm == 0x08#5 && t.drive == .notDriving && t.E == 0#16 && !t.smp) = true := by decide

/-! ### Polls (95 L2 §3, §4) -/

theorem test_b_poll_delays_then_misses :
    after (step (polling 0x08#5 4#16 false [true])) (fun t =>
      t.smp && t.E == 4#16 && t.tBlk == 2 && t.trace == [⟨0x300000002#34, none⟩]) = true ∧
    after (step (polling 0x08#5 4#16 true [true])) (fun t =>
      !t.smp && t.E == 6#16 && t.tBlk == 0 && t.trace == [⟨0x200000000#34, some true⟩]) = true := by decide

theorem test_b_poll_ends :
    after (step (polling 0x08#5 4#16 true [false])) (fun t => t.fsm == 0x09#5 && t.E == 0#16 && !t.smp) = true ∧
    after (step (polling 0x08#5 40#16 false [])) (fun t => t.fsm == 0x0D#5 && t.err == .timeout && t.E == 40#16 && t.trace == [])
      = true := by decide

theorem test_c_poll :
    after (step (polling 0x09#5 86#16 true [true])) (fun t => t.fsm == 0x0A#5 && t.E == 0#16) = true ∧
    after (step (polling 0x09#5 88#16 false [])) (fun t => t.err == .timeout && t.fsm == 0x0D#5) = true := by decide

theorem test_d_poll :
    after (step (polling 0x0A#5 0#16 true [false])) (fun t => t.fsm == 0x0B#5) = true ∧
    after (step (polling 0x0A#5 86#16 true [true])) (fun t => t.fsm == 0x0A#5 && t.E == 88#16) = true := by decide

/-! ### Bits (95 L1 E4, L2 §6) -/

theorem test_bit_low :
    after (step (polling 0x0B#5 48#16 true [true])) (fun t => t.fsm == 0x0C#5 && t.lowDur == 48#16 && t.E == 0#16) = true ∧
    after (step (polling 0x0B#5 66#16 false [])) (fun t => t.err == .timeout && t.E == 66#16) = true := by decide

theorem test_bit_high_decides :
    after (step { polling 0x0C#5 68#16 true [false] with lowDur := 48#16 }) (fun t =>
      t.frame == [(0, 0x80#8)] && t.i == 1#6 && t.highDur == 68#16 && t.fsm == 0x0B#5) = true ∧
    after (step { polling 0x0C#5 48#16 true [false] with lowDur := 48#16 }) (fun t => t.frame == [] && t.i == 1#6) = true := by decide

theorem test_bit_high_ends_the_loop :
    after (step { polling 0x0C#5 74#16 true [false] with lowDur := 64#16, i := 39#6, frame := [(4, 0x42#8)] }) (fun t =>
      t.frame == [(4, 0x43#8)] && t.i == 40#6 && t.fsm == 0x0D#5 && t.err == .ok) = true ∧
    after (step { polling 0x0C#5 2#16 true [false] with i := 8#6 }) (fun t => t.frame == [(1, 0x80#8)]) = true := by decide

/-! ### Release, checksum, decoding, reset (95 L2 §7 to §9) -/

theorem test_release :
    after (step { at_ 0x0D#5 with pinDir := .input }) (fun t => t.fsm == 0x0E#5 && t.pinDir == .outputOpenDrain) = true ∧
    after (step (at_ 0x0E#5)) (fun t => t.fsm == 0x0F#5 && t.busy) = true ∧
    after (step { at_ 0x0E#5 with err := .timeout }) (fun t => t.fsm == 0x00#5 && t.statusWord == 0x06#8) = true := by decide

/-- S4 (the sum wraps) and S5. -/
theorem test_validate :
    after (step { at_ 0x0F#5 with frame := [(0, 0xFF#8), (1, 0xFF#8), (2, 0xFF#8), (3, 0xFF#8), (4, 0xFC#8)] }) (fun t =>
      t.fsm == 0x10#5 && t.busy) = true ∧
    after (step { at_ 0x0F#5 with frame := [(0, 0xFF#8), (1, 0xFF#8), (2, 0xFF#8), (3, 0xFF#8), (4, 0xFF#8)] }) (fun t =>
      t.fsm == 0x00#5 && t.statusWord == 0x0A#8 && t.temp == 0#16) = true := by decide

/-- H6. -/
theorem test_decode_variant_b :
    after (step { at_ 0x10#5 with frame := frameP1 }) (fun t =>
      t.temp == 351#16 && t.hum == 652#16 && !t.busy && t.done && t.fsm == 0x00#5) = true := by decide

/-- L2 §8; −266 is 0xFEF6 and −101 is 0xFF9B (L2 §1). -/
theorem test_decode_corners :
    decodeField .variantA 0x19#8 0x03#8 = 250#16 ∧ decodeField .variantA 0x80#8 0x00#8 = 1280#16 ∧
    decodeField .variantB 0x81#8 0x0A#8 = 0xFEF6#16 ∧ decodeField .variantB 0x80#8 0x65#8 = 0xFF9B#16 ∧
    decodeField .variantB 0x80#8 0x00#8 = 0#16 ∧ decodeField .variantB 0xFF#8 0xFF#8 = 0x8001#16 := by decide

/-- Z3. -/
theorem test_reset_releases_the_line :
    after (step { at_ 0x05#5 with pinOut := false, inputs := [.reset] }) (fun t =>
      t.fsm == 0x00#5 && t.drive == .releases && t.statusWord == 0x00#8) = true := by decide

theorem test_reserved_code_faults :
    step (at_ 0x11#5) = .fault (.reservedFsm 0x11#5) ∧
    step { at_ 0x1F#5 with inputs := [.cmd 0x01#8] } = .fault (.reservedFsm 0x1F#5) := ⟨rfl, rfl⟩

theorem test_err_11_faults : step { timedOut with err := .invalidArgument } = .fault .invalidArgument := rfl

theorem test_fetch_word_runs_first :
    after (step (State.reset.withFetchWord 8 0x0B)) (fun t => t.fsm == 0x0B#5 && t.smp) = true ∧
    after (step (State.reset.withFetchWord 40 0x300000007)) (fun t => t.trace == [⟨0x300000007#34, none⟩]) = true := by decide

/-! ### Witnesses -/

/-- A read at the beginning of its first wait. -/
def begun : State :=
  { polling 0x08#5 0#16 false [] with tBlk := 20000, trace := List.replicate 7 ⟨0x000000001#34, none⟩ }

/-- A read about to take the last sample of its last bit, at a time and with a record that fit each other. -/
def lastBit : State :=
  { polling 0x0C#5 0#16 true [false] with i := 39#6, tBlk := 20002, trace := List.replicate 8 ⟨0x000000001#34, none⟩ }

/-- A read that has ended in `Ok` with all bits 0, at a time and with a record that fit each other. -/
def finished : State :=
  { State.reset with
    done := true, variant := .variantB, i := 40#6, tBlk := 20002, trace := List.replicate 11 ⟨0x000000001#34, none⟩ }

theorem streamBit_nil (j : Nat) : streamBit [] j = false := by simp [streamBit, Memory.read]

theorem begun_inv : Inv begun where
  fsm := ⟨by decide, by decide⟩
  status := ⟨by decide, by decide, by decide, by decide, by decide⟩
  pin := ⟨by decide, by decide⟩
  sampler := ⟨by decide, by decide, by decide, by decide, by decide, by decide, by decide, by decide⟩
  frame := ⟨by decide, fun _ _ j _ _ => streamBit_nil j⟩
  result := ⟨by decide, fun h => absurd h (by decide), fun h => absurd h (by decide), fun h => absurd h (by decide),
    fun h => absurd h (by decide)⟩
  time := by show begun.tBlk ≤ latestEntry begun.cfg begun.fsm begun.i.toNat + waitSoFar begun; decide
  request := by unfold RequestInv; decide

theorem lastBit_inv : Inv lastBit where
  fsm := ⟨by decide, by decide⟩
  status := ⟨by decide, by decide, by decide, by decide, by decide⟩
  pin := ⟨by decide, by decide⟩
  sampler := ⟨by decide, by decide, by decide, by decide, by decide, by decide, by decide, by decide⟩
  frame := ⟨by decide, fun _ _ j _ _ => streamBit_nil j⟩
  result := ⟨by decide, fun h => absurd h (by decide), fun h => absurd h (by decide), fun h => absurd h (by decide),
    fun h => absurd h (by decide)⟩
  time := by show lastBit.tBlk ≤ latestEntry lastBit.cfg lastBit.fsm lastBit.i.toNat + waitSoFar lastBit; decide
  request := by unfold RequestInv; decide

theorem finished_inv : Inv finished where
  fsm := ⟨by decide, by decide⟩
  status := ⟨by decide, by decide, by decide, by decide, by decide⟩
  pin := ⟨by decide, by decide⟩
  sampler := ⟨by decide, by decide, by decide, by decide, by decide, by decide, by decide, by decide⟩
  frame := ⟨by decide, fun _ _ j _ _ => streamBit_nil j⟩
  result := ⟨by decide, fun _ _ => by unfold checksumHolds; decide, by decide, fun h => absurd h (by decide),
    fun h => absurd h (by decide)⟩
  time := by show finished.tBlk ≤ latestEntry finished.cfg finished.fsm finished.i.toNat + waitSoFar finished; decide
  request := by unfold RequestInv; decide

/-- DecodeAfterEncode: the operands' edges are well formed. -/
theorem witness_decode_after_encode :
    (Instr.read .variantB).wf = true ∧ (Instr.nocmd 0x7F#7).wf = true ∧ (Instr.reservedCmd .variantA 1#6).wf = true ∧
    (Instr.delay 0xFFFFFFFF#32).wf = true ∧ (Instr.reservedFsm 0x1F#5).wf = true := by decide

/-- EncodeAfterDecode: words of all three formats that decode. -/
theorem witness_encode_after_decode :
    decode (.cmd 0xFF#8) = .ok (.reservedCmd .variantB 63#6) ∧ decode (.bus 0x3FFFFFFFF#34) = .ok (.delay 0xFFFFFFFF#32) ∧
    decode (.fsm 0x1F#5) = .ok (.reservedFsm 0x1F#5) := by decide

/-- StepRunsTheNextOperation, one state for each of its three clauses. -/
theorem witness_step_runs_the_next_operation :
    (begun.err ≠ .invalidArgument ∧ begun.inputs = []) ∧ ({ begun with inputs := [.tick] }.inputs = .tick :: []) ∧
    (begun.fsm.toNat ≤ 0x10 ∧ { begun with inputs := [.cmd 0x01#8] }.inputs = .cmd 0x01#8 :: []) := by decide

/-- ResetAbandonsAnyRead: reset in a wait, with an illegal code and err = 11 too. -/
theorem witness_reset_abandons_any_read :
    { lastBit with inputs := [.reset] }.inputs = .reset :: [] ∧
    { at_ 0x1F#5 with err := .invalidArgument, inputs := [.reset, .tick] }.inputs = .reset :: [.tick] := by decide

/-- ReservedCodesFault, at both ends of the reserved codes, with nothing presented and with a READ. -/
theorem witness_reserved_codes_fault :
    ((at_ 0x11#5).err ≠ .invalidArgument ∧ 0x11 ≤ (at_ 0x11#5).fsm.toNat ∧ ∀ r, (at_ 0x11#5).inputs ≠ .reset :: r) ∧
    (0x11 ≤ (at_ 0x1F#5).fsm.toNat ∧ ∀ r, { at_ 0x1F#5 with inputs := [.cmd 0x01#8] }.inputs ≠ .reset :: r) :=
  ⟨⟨by decide, by decide, fun _ => by show ([] : List Input) ≠ _; simp⟩, by decide,
    fun _ => by show [Input.cmd 0x01#8] ≠ _; simp⟩

/-- InvalidErrorCodeFaults. -/
theorem witness_invalid_error_code_faults :
    { finished with err := .invalidArgument }.err = .invalidArgument ∧
    (∀ r, { finished with err := .invalidArgument }.inputs ≠ .reset :: r) ∧
    { finished with err := .invalidArgument }.done = true :=
  ⟨rfl, fun _ => by show ([] : List Input) ≠ _; simp, rfl⟩

/-- ReadStartsOneReadFromIdle: both branches; OtherCommandWordsChangeNothing: its words' edges; ReadWhileBusyIsLost. -/
theorem witness_command_words :
    (finished.fsm = 0x00#5 ∧ begun.fsm ≠ 0x00#5 ∧ begun.fsm.toNat ≤ 0x10 ∧ begun.err ≠ .invalidArgument) ∧
    { begun with inputs := [.cmd 0x03#8] }.inputs = .cmd 0x03#8 :: [] ∧
    ((0xFE#8).getLsbD 0 = false ∧ (0x00#8).getLsbD 0 = false ∧ 4 ≤ (0x05#8).toNat ∧ 4 ≤ (0xFF#8).toNat) := by decide

/-- BitHighStoresTheBit: the last bit that has a place, the first index that has none. -/
theorem witness_bit_high_stores_the_bit :
    (lastBit.i.toNat ≤ 39 ∧ lastBit.frame.wf = true) ∧
    (40 ≤ { lastBit with i := 40#6 }.i.toNat ∧ { lastBit with i := 40#6 }.smp = true ∧
      { lastBit with i := 40#6 }.answers.headD (Config.lineLevel { lastBit with i := 40#6 }.draws) = false) := by decide

/-- ReleaseStates: each value of `err` it names. -/
theorem witness_release_states :
    (at_ 0x0E#5).err = .ok ∧ { at_ 0x0E#5 with err := .timeout }.err = .timeout ∧
    { at_ 0x0E#5 with err := .checksumMismatch }.err = .checksumMismatch := by decide

/-- ValidateChecksTheSum: a wrapping sum that is right (S4), and one that is off by one (S2). -/
theorem witness_validate_checks_the_sum :
    (0xFF + 0xFF + 0xFF + 0xFF) % 256 = (Memory.read [(0, 0xFF#8), (1, 0xFF#8), (2, 0xFF#8), (3, 0xFF#8), (4, 0xFC#8)] 4).toNat ∧
    (0x28 + 0x00 + 0x15 + 0x05) % 256 ≠ (Memory.read [(0, 0x28#8), (2, 0x15#8), (3, 0x05#8), (4, 0x43#8)] 4).toNat := by decide

/-- DecodeGivesTheTenths: both variants. -/
theorem witness_decode_gives_the_tenths :
    (at_ 0x10#5).variant = .variantB ∧ { at_ 0x10#5 with variant := .variantA }.variant = .variantA := by decide

/-- HostReadsTheResult: the four results. -/
theorem witness_host_reads_the_result :
    begun.done = false ∧ (finished.done = true ∧ finished.err = .ok) ∧ (timedOut.done = true ∧ timedOut.err = .timeout) ∧
    ({ finished with err := .checksumMismatch }.done = true ∧
      { finished with err := .checksumMismatch }.err = .checksumMismatch) := by decide

/-- ResultIsStableUntilTheNextRead: a step that only ticks, and one given a word that is no READ. -/
theorem witness_result_is_stable_until_the_next_read :
    (StatusInv finished ∧ finished.done = true ∧ (∃ t, step finished = .next t) ∧ finished.nextInstr ≠ none ∧
      ∀ v, finished.nextInstr ≠ some (.read v)) ∧
    ((∃ t, step { finished with inputs := [.cmd 0x02#8] } = .next t) ∧
      { finished with inputs := [.cmd 0x02#8] }.nextInstr = some (.nocmd 1#7)) :=
  ⟨⟨finished_inv.status, rfl, ⟨_, rfl⟩, by decide, fun _ => by show some Instr.idle ≠ _; simp⟩, ⟨_, rfl⟩, rfl⟩

/-- IdleWaitsForever. -/
theorem witness_idle_waits_forever : finished.fsm = 0x00#5 ∧ finished.inputs = [] ∧ finished.err ≠ .invalidArgument := by decide

/-- The four frame statements: operations of each clause that answer a next state. -/
theorem witness_frames :
    (∃ t, exec .bitHigh lastBit = .next t) ∧ (∃ t, exec .decode (at_ 0x10#5) = .next t) ∧
    (∃ t, exec (.read .variantA) finished = .next t) ∧ (∃ t, exec (.read .variantA) begun = .next t ∧ begun.fsm ≠ 0x00#5) ∧
    (∃ t, exec .bPoll begun = .next t) ∧ (∃ t, exec .validate (at_ 0x0F#5) = .next t) ∧ (∃ t, exec (.delay 2#32) begun = .next t) ∧
    (∃ t, exec (.setdir .input) begun = .next t) ∧ (∃ t, exec (.setlvl true) begun = .next t) ∧ (∃ t, exec .idle begun = .next t) ∧
    (∃ t, exec .relDir (at_ 0x0D#5) = .next t) :=
  ⟨⟨_, rfl⟩, ⟨_, rfl⟩, ⟨_, rfl⟩, ⟨_, rfl, by decide⟩, ⟨_, rfl⟩, ⟨_, rfl⟩, ⟨_, rfl⟩, ⟨_, rfl⟩, ⟨_, rfl⟩, ⟨_, rfl⟩, ⟨_, rfl⟩⟩

/-- Every statement that a step keeps an invariant, and NoStepStops: states in a wait, at the last bit and idle again, with a step. -/
theorem witness_invariants_are_kept :
    (Inv begun ∧ ∃ t, step begun = .next t) ∧ (Inv lastBit ∧ ∃ t, step lastBit = .next t) ∧
    (Inv finished ∧ ∃ t, step finished = .next t) :=
  ⟨⟨begun_inv, _, rfl⟩, ⟨lastBit_inv, _, rfl⟩, ⟨finished_inv, _, rfl⟩⟩

/-- FsmCodesStayLegal: a step that changes the code, and a step that finds a reserved one. -/
theorem witness_fsm_codes_stay_legal :
    (∃ t, step lastBit = .next t ∧ t.fsm ≠ lastBit.fsm) ∧
    (0x11 ≤ (at_ 0x11#5).fsm.toNat ∧ (at_ 0x11#5).nextInstr ≠ none ∧
      { at_ 0x1F#5 with inputs := [.cmd 0x00#8] }.nextInstr ≠ none) :=
  ⟨⟨_, rfl, by decide⟩, by decide⟩

/-- ReadTimeIsBounded and ReadRequestsAreBounded: a read in progress and one that is over, at the default parameters. -/
theorem witness_bounds :
    (Inv lastBit ∧ lastBit.busy = true ∧ lastBit.cfg = Params.default) ∧
    (Inv finished ∧ finished.done = true ∧ finished.cfg = Params.default) :=
  ⟨⟨lastBit_inv, rfl, rfl⟩, finished_inv, rfl, rfl⟩

/-- WaitBegins holds where a wait begins, in each poll state. -/
theorem waitBegins_polling (c : BitVec 5) (h : isPoll c = true) (l : List Level) : WaitBegins (polling c 0#16 false l) :=
  ⟨rfl, h, by show Err.ok ≠ .invalidArgument; decide, rfl, rfl, rfl, by show (0#6).toNat ≤ 39; decide⟩

/-- WaitSucceedsAtItsPoll: the first and the last poll of the budget 65 (K = 33, 95 L2 §4). -/
theorem witness_wait_succeeds_at_its_poll :
    (WaitBegins (polling 0x0B#5 0#16 false (waitLevels true 1 ++ [])) ∧ 1 ≤ pollCount Params.default 65#16) ∧
    (WaitBegins (polling 0x0B#5 0#16 false (waitLevels true 33 ++ [false])) ∧ 33 ≤ pollCount Params.default 65#16 ∧
      ¬34 ≤ pollCount Params.default 65#16) :=
  ⟨⟨waitBegins_polling _ rfl _, by decide⟩, waitBegins_polling _ rfl _, by decide, by decide⟩

/-- WaitTimesOut: 20 samples of 1 in B_POLL (K = 20), and a wait of budget 0. -/
theorem witness_wait_times_out :
    (WaitBegins (polling 0x08#5 0#16 false (List.replicate 20 true ++ [])) ∧ pollCount Params.default 40#16 = 20) ∧
    pollCount { Params.default with pBAck1 := 0#16 } 0#16 = 0 :=
  ⟨⟨waitBegins_polling _ rfl _, by decide⟩, by decide⟩

/-- TimeoutReleasesAndEnds. -/
theorem witness_timeout_releases_and_ends :
    { polling 0x0D#5 40#16 false [] with err := .timeout }.fsm = 0x0D#5 ∧
    { polling 0x0D#5 40#16 false [] with err := .timeout }.err = .timeout ∧
    { polling 0x0D#5 40#16 false [] with err := .timeout }.inputs = [] := by decide

/-- HandshakeTrace and CompleteReadPublishesItsFrame: the fastest and the slowest handshake. -/
theorem witness_handshake_trace :
    ((at_ 0x01#5).fsm = 0x01#5 ∧ (at_ 0x01#5).cfg.legal = true ∧ (at_ 0x01#5).err ≠ .invalidArgument ∧ (at_ 0x01#5).inputs = [] ∧
      (at_ 0x01#5).i.toNat ≤ 39) ∧
    ackPolls Params.default 1 1 1 ∧ ackPolls Params.default 20 44 44 ∧ ¬ackPolls Params.default 21 44 44 ∧
    { at_ 0x01#5 with answers := ackLevels 20 44 44 ++ [] }.answers = ackLevels 20 44 44 ++ [] := by unfold ackPolls; decide

/-- BitIsOneWhenHighPollsExceedLow: a 1 (both waits at their last poll) and a tie. -/
theorem witness_bit_is_one_when_high_polls_exceed_low :
    WaitBegins (polling 0x0B#5 0#16 false (bitLevels 33 38 ++ [])) ∧ bitPolls Params.default 33 38 ∧ 33 < 38 ∧
    WaitBegins (polling 0x0B#5 0#16 false (bitLevels 25 25 ++ [])) ∧ bitPolls Params.default 25 25 ∧ ¬25 < 25 :=
  ⟨waitBegins_polling _ rfl _, by unfold bitPolls; decide, by decide, waitBegins_polling _ rfl _, by unfold bitPolls; decide,
    by decide⟩

/-- BitLoopStoresTheStream: the shortest stream, all bits 0. -/
theorem witness_bit_loop_stores_the_stream :
    WaitBegins (polling 0x0B#5 0#16 false (streamLevels (List.replicate 40 (1, 1)) ++ [])) ∧
    (polling 0x0B#5 0#16 false []).frame.wf = true ∧ (polling 0x0B#5 0#16 false []).i = 0#6 ∧
    (List.replicate 40 ((1, 1) : Nat × Nat)).length = 40 ∧
    ∀ k ∈ List.replicate 40 ((1, 1) : Nat × Nat), bitPolls Params.default k.1 k.2 :=
  ⟨waitBegins_polling _ rfl _, by decide, rfl, rfl, fun k h => by
    rw [List.eq_of_mem_replicate h]; unfold bitPolls; decide⟩

/-- CompleteReadPublishesItsFrame: the idle block given `READ B`, with the shortest stream (all bits 0, a frame with its checksum) and
the longest (all bits 1, a frame without it: R135). -/
theorem witness_complete_read_publishes_its_frame :
    (finished.fsm = 0x00#5 ∧ finished.cfg.legal = true ∧ finished.err ≠ .invalidArgument ∧
      { finished with inputs := [.cmd 0x03#8] }.inputs = [.cmd (if Variant.variantB = .variantA then 0x01#8 else 0x03#8)]) ∧
    (∀ k ∈ List.replicate 40 ((33, 38) : Nat × Nat), bitPolls Params.default k.1 k.2) ∧
    checksumHolds [] ∧ ¬checksumHolds [(0, 0xFF#8), (1, 0xFF#8), (2, 0xFF#8), (3, 0xFF#8), (4, 0xFF#8)] :=
  ⟨by decide, fun k h => by rw [List.eq_of_mem_replicate h]; unfold bitPolls; decide, by unfold checksumHolds; decide,
    by unfold checksumHolds; decide⟩

/-- EveryReadEnds: a read at its first wait and one at its last sample. -/
theorem witness_every_read_ends :
    (Inv begun ∧ begun.fsm ≠ 0x00#5 ∧ begun.inputs = []) ∧ (Inv lastBit ∧ lastBit.fsm ≠ 0x00#5 ∧ lastBit.inputs = []) :=
  ⟨⟨begun_inv, by decide, rfl⟩, lastBit_inv, by decide, rfl⟩

/-- ReadsAreIndependent: a block fresh from reset and one whose last read timed out. -/
theorem witness_reads_are_independent :
    decodeCmd 0x01#8 = .read .variantA ∧ State.reset.fsm = 0x00#5 ∧ timedOut.fsm = 0x00#5 ∧ PinInv State.reset ∧ PinInv timedOut ∧
    State.reset.err ≠ .invalidArgument ∧ timedOut.err ≠ .invalidArgument ∧ State.reset.cfg = timedOut.cfg ∧
    State.reset.answers = timedOut.answers ∧ State.reset.draws = timedOut.draws ∧ State.reset.err ≠ timedOut.err :=
  ⟨rfl, rfl, rfl, ⟨by decide, by decide⟩, ⟨by decide, by decide⟩, by decide, by decide, rfl, rfl, rfl, by decide⟩

/-- OnlyDecodeReadsTheVariant and ResultsFeedNothingBack: an operation they are about. -/
theorem witness_noninterference : Instr.validate ≠ .decode ∧ ∀ w, Instr.validate ≠ .read w :=
  ⟨by decide, fun _ => by simp⟩

end Sys2Proof.Tests
end

section
/-! SUPPORT. What a step that takes its next operation does with it: the operation named by the head of `inputs`, the step as its
exec behind the guards. -/

namespace Sys2Proof.Machine

/-- R12: a tick leaves the step to the FSM state. -/
theorem State.nextInstr_of_inputs_tick (s : State) (r : List Input) (h : s.inputs = .tick :: r) :
    s.nextInstr = some (decodeFsm s.fsm) := by
  simp [State.nextInstr, h]

/-- R62: a CMD word presented is the next operation. -/
theorem State.nextInstr_of_inputs_cmd (s : State) (w : BitVec 8) (r : List Input) (h : s.inputs = .cmd w :: r) :
    s.nextInstr = some (decodeCmd w) := by
  simp [State.nextInstr, h]

/-- A step with no next operation is a reset (R126). -/
theorem step_of_nextInstr_none (s : State) (hn : s.nextInstr = none) : step s = .next s.consume.applyReset := by
  unfold step
  rw [hn]

/-- Past the guard of `err`, a step is its operation behind the guard of `fsm`. -/
theorem step_of_nextInstr_some (s : State) (x : Instr) (he : s.err ≠ .invalidArgument) (hx : s.nextInstr = some x) :
    step s = guardFsm s (exec x s.consume) := by
  unfold step
  rw [hx]
  exact guardErr_of_ne s _ he

/-- Past the guard of `err`, a step of the FSM is exec of its state: a reserved code needs no premise, for its exec faults as the
guard does. -/
theorem step_fsm (s : State) (he : s.err ≠ .invalidArgument) (hx : s.nextInstr = some (decodeFsm s.fsm)) :
    step s = exec (decodeFsm s.fsm) s.consume := by
  rw [step_of_nextInstr_some s _ he hx, guardFsm_exec]

/-- From a legal code, with `err` not 11, a step is exec of its operation. -/
theorem step_legal (s : State) (x : Instr) (he : s.err ≠ .invalidArgument) (hf : s.fsm.toNat ≤ 0x10) (hx : s.nextInstr = some x) :
    step s = exec x s.consume := by
  rw [step_of_nextInstr_some s x he hx, guardFsm_of_legal s _ hf]

end Sys2Proof.Machine
end

section
/-! SUPPORT. Which operations answer a next state: a poll whose continuation does, and every legal FSM state that keeps `i` inside the
frame and `err` off 11. -/

namespace Sys2Proof.Machine

/-- R73: a poll answers where the continuation of its matching sample does. -/
theorem poll_answers (q : PollParams) (k : State → Result) (s : State) (hk : ∃ t, k s.busGetLevel = .next t) :
    ∃ t, poll q k s = .next t := by
  rcases poll_cases q k s with ⟨_, _, e⟩ | ⟨_, _, e⟩ | ⟨_, _, e⟩ | ⟨_, _, e⟩
  · exact ⟨_, e⟩
  · exact ⟨_, e⟩
  · exact ⟨_, e⟩
  · exact e ▸ hk

/-- R86 to R88, R90: a poll whose continuation always answers does too. -/
theorem poll_next_answers (q : PollParams) (k : State → State) (s : State) : ∃ t, poll q (fun v => .next (k v)) s = .next t :=
  poll_answers q _ s ⟨_, rfl⟩

/-- R36, R91: BIT_HIGH answers while `i` names a bit of the frame. -/
theorem execBitHigh_answers (s : State) (hi : s.i.toNat ≤ 39) : ∃ t, execBitHigh s = .next t := by
  refine poll_answers _ _ s ?_
  rcases bitReceived_cases s.busGetLevel with ⟨_, e⟩ | ⟨h, _⟩
  · exact ⟨_, e⟩
  · rw [State.busGetLevel_i] at h
    omega

/-- R99, R111: REL_LVL answers where `err` is not 11. -/
theorem execRelLvl_answers (s : State) (he : s.err ≠ .invalidArgument) : ∃ t, execRelLvl s = .next t :=
  ⟨_, guardErr_of_ne (s.busSetLevel true) _ he⟩

/-- R15, R20: the FSM state of a legal code answers. Only BIT_HIGH and REL_LVL can stop, on an index above 39 and on `err = 11`. -/
theorem exec_decodeFsm_answers (s : State) (hf : s.fsm.toNat ≤ 0x10) (he : s.err ≠ .invalidArgument)
    (hi : s.fsm = 0x0C#5 → s.i.toNat ≤ 39) : ∃ t, exec (decodeFsm s.fsm) s = .next t := by
  rcases code_cases s.fsm with c | c | c | c | c | c | c | c | c | c | c | c | c | c | c | c | c | ⟨c, _⟩
  -- IDLE to B_DIR
  iterate 8 · rw [c]; exact ⟨_, rfl⟩
  -- B_POLL to BIT_LOW
  · rw [c]; exact poll_next_answers _ (fun v => v.enterPoll 0x09#5) s
  · rw [c]; exact poll_next_answers _ (fun v => v.enterPoll 0x0A#5) s
  · rw [c]; exact poll_next_answers _ (fun v => v.enterPoll 0x0B#5) s
  · rw [c]; exact poll_next_answers _ (fun v => State.enterPoll { v with lowDur := v.E } 0x0C#5) s
  · rw [c]; exact execBitHigh_answers s (hi c)
  -- REL_DIR
  · rw [c]; exact ⟨_, rfl⟩
  · rw [c]; exact execRelLvl_answers s he
  -- VALIDATE and DECODE
  iterate 2 · rw [c]; exact ⟨_, rfl⟩
  -- the reserved codes
  · omega

/-- R50, R62, R63: every CMD word answers, a reserved one by the model's choice (log entry 6). -/
theorem exec_decodeCmd_answers (w : BitVec 8) (s : State) : ∃ t, exec (decodeCmd w) s = .next t := by
  rcases exec_decodeCmd w s with e | ⟨_, _, _, e⟩ <;> exact ⟨_, e⟩

end Sys2Proof.Machine
end

section
/-! PROOF. The family "scope": the step as exec of the next operation, and that no step stops. -/

namespace Sys2Proof.Machine

/-- Settles O4: the head of `inputs` names the operation, and the guards let it through. -/
theorem stepRunsTheNextOperation : Obligations.StepRunsTheNextOperation := by
  unfold Obligations.StepRunsTheNextOperation
  intro s he
  refine ⟨fun hi => step_quiet s hi he, fun r hi => ?_, fun w r hf hi => ?_⟩
  · rw [← State.consume_cons s _ r hi]
    exact step_fsm s he (s.nextInstr_of_inputs_tick r hi)
  · rw [← State.consume_cons s _ r hi]
    exact step_legal s _ he hf (s.nextInstr_of_inputs_cmd w r hi)

/-- Settles O39: the invariants rule out each fault, `fsm` at a reserved code, `err = 11` and an index outside the frame, and what is
left is a reset, an FSM state or a CMD word that answers. -/
theorem noStepStops : Obligations.NoStepStops := by
  unfold Obligations.NoStepStops
  intro s hfsm hstatus hsampler
  have hf := hfsm.legal
  have he := hstatus.errNeverInvalid
  have hi : s.fsm = 0x0C#5 → s.i.toNat ≤ 39 := fun c => hsampler.indexInLoop (.inr c)
  cases hn : s.nextInstr with
  | none => exact ⟨_, step_of_nextInstr_none s hn⟩
  | some x =>
    rw [step_legal s x he hf hn]
    rcases nextInstr_some s x hn with rfl | ⟨w, rfl⟩
    · exact exec_decodeFsm_answers s.consume hf he hi
    · exact exec_decodeCmd_answers w s.consume

end Sys2Proof.Machine
end

section
/-! SUPPORT. The moves of the FSM as an invariant sees them: the five poll states as one poll with one continuation, what that
continuation leaves, and the step as a skip, a reset, a READ accepted in IDLE or a move. -/

namespace Sys2Proof.Machine

/-! ### The fields after a received bit, and after any wait that succeeds -/

@[simp] theorem afterBit_cfg (s : State) : (afterBit s).cfg = s.cfg := rfl
@[simp] theorem afterBit_fsm (s : State) : (afterBit s).fsm = if s.i + 1#6 = 40#6 then 0x0D#5 else 0x0B#5 := rfl
@[simp] theorem afterBit_smp (s : State) : (afterBit s).smp = false := rfl
@[simp] theorem afterBit_variant (s : State) : (afterBit s).variant = s.variant := rfl
@[simp] theorem afterBit_busy (s : State) : (afterBit s).busy = s.busy := rfl
@[simp] theorem afterBit_done (s : State) : (afterBit s).done = s.done := rfl
@[simp] theorem afterBit_err (s : State) : (afterBit s).err = s.err := rfl
@[simp] theorem afterBit_temp (s : State) : (afterBit s).temp = s.temp := rfl
@[simp] theorem afterBit_hum (s : State) : (afterBit s).hum = s.hum := rfl
@[simp] theorem afterBit_E (s : State) : (afterBit s).E = 0#16 := rfl
@[simp] theorem afterBit_lowDur (s : State) : (afterBit s).lowDur = s.lowDur := rfl
@[simp] theorem afterBit_i (s : State) : (afterBit s).i = s.i + 1#6 := rfl
@[simp] theorem afterBit_frame (s : State) : (afterBit s).frame = storeBit s.frame s.i.toNat (decideBit s.lowDur s.E) := rfl
@[simp] theorem afterBit_pinDir (s : State) : (afterBit s).pinDir = s.pinDir := rfl
@[simp] theorem afterBit_pinOut (s : State) : (afterBit s).pinOut = s.pinOut := rfl
@[simp] theorem afterBit_inputs (s : State) : (afterBit s).inputs = s.inputs := rfl
@[simp] theorem afterBit_answers (s : State) : (afterBit s).answers = s.answers := rfl
@[simp] theorem afterBit_draws (s : State) : (afterBit s).draws = s.draws := rfl
@[simp] theorem afterBit_tBlk (s : State) : (afterBit s).tBlk = s.tBlk := rfl
@[simp] theorem afterBit_trace (s : State) : (afterBit s).trace = s.trace := rfl

@[simp] theorem afterWait_cfg (s : State) : (afterWait s).cfg = s.cfg := by
  unfold afterWait; split <;> rfl
@[simp] theorem afterWait_smp (s : State) : (afterWait s).smp = false := by
  unfold afterWait; split <;> rfl
@[simp] theorem afterWait_busy (s : State) : (afterWait s).busy = s.busy := by
  unfold afterWait; split <;> rfl
@[simp] theorem afterWait_done (s : State) : (afterWait s).done = s.done := by
  unfold afterWait; split <;> rfl
@[simp] theorem afterWait_err (s : State) : (afterWait s).err = s.err := by
  unfold afterWait; split <;> rfl
@[simp] theorem afterWait_temp (s : State) : (afterWait s).temp = s.temp := by
  unfold afterWait; split <;> rfl
@[simp] theorem afterWait_hum (s : State) : (afterWait s).hum = s.hum := by
  unfold afterWait; split <;> rfl
@[simp] theorem afterWait_E (s : State) : (afterWait s).E = 0#16 := by
  unfold afterWait; split <;> rfl
@[simp] theorem afterWait_pinDir (s : State) : (afterWait s).pinDir = s.pinDir := by
  unfold afterWait; split <;> rfl
@[simp] theorem afterWait_pinOut (s : State) : (afterWait s).pinOut = s.pinOut := by
  unfold afterWait; split <;> rfl
@[simp] theorem afterWait_tBlk (s : State) : (afterWait s).tBlk = s.tBlk := by
  unfold afterWait; split <;> rfl
@[simp] theorem afterWait_trace (s : State) : (afterWait s).trace = s.trace := by
  unfold afterWait; split <;> rfl

/-- R86 to R88: an acknowledgment's continuation enters the next poll state. -/
theorem afterWait_b (s : State) (c : s.fsm = 0x08#5) : afterWait s = s.enterPoll 0x09#5 := by simp [afterWait, c]
theorem afterWait_c (s : State) (c : s.fsm = 0x09#5) : afterWait s = s.enterPoll 0x0A#5 := by simp [afterWait, c]
theorem afterWait_d (s : State) (c : s.fsm = 0x0A#5) : afterWait s = s.enterPoll 0x0B#5 := by simp [afterWait, c]
/-- R90: so does BIT_LOW's, with the duration kept. -/
theorem afterWait_low (s : State) (c : s.fsm = 0x0B#5) :
    afterWait s = State.enterPoll { s with lowDur := s.E } 0x0C#5 := by simp [afterWait, c]
/-- R91: BIT_HIGH's continuation takes the bit. -/
theorem afterWait_high (s : State) (c : s.fsm = 0x0C#5) : afterWait s = afterBit s := by simp [afterWait, c]

/-- A wait's success goes on to a poll state or to REL_DIR (R55). -/
theorem afterWait_fsm_bounds (s : State) : 0x08 ≤ (afterWait s).fsm.toNat ∧ (afterWait s).fsm.toNat ≤ 0x0D := by
  unfold afterWait
  split
  iterate 4 · simp
  · rw [afterBit_fsm]
    split <;> decide

/-! ### Poll states by their code -/

theorem isPoll_iff (c : BitVec 5) : isPoll c = true ↔ 0x08 ≤ c.toNat ∧ c.toNat ≤ 0x0C := decide_eq_true_iff

/-- R19: the poll states, by name. -/
theorem isPoll_cases (c : BitVec 5) (h : isPoll c = true) :
    c = 0x08#5 ∨ c = 0x09#5 ∨ c = 0x0A#5 ∨ c = 0x0B#5 ∨ c = 0x0C#5 := by
  revert c
  decide

/-- A poll's move depends on its continuation only at the state after the sample. -/
theorem PollMove.congr {q q' : PollParams} {k k' : State → State} {u t : State} (p : PollMove q k u t) (hq : q' = q)
    (hk : k' u.busGetLevel = k u.busGetLevel) : PollMove q' k' u t := by
  subst hq
  cases p with
  | timeout a b => exact .timeout a b
  | delay a b => exact .delay a b
  | miss a b => exact .miss a b
  | hit a b => exact hk ▸ .hit a b

/-- R56, R73: a poll state's move is a poll with its state's parameters and continuation. -/
theorem FsmMove.pollMove {u t : State} (m : FsmMove u t) (hp : isPoll u.fsm = true) :
    PollMove (pollParamsAt u.cfg u.fsm) afterWait u t := by
  cases m with
  | bPoll _ c p => exact p.congr (by rw [c]; rfl) (afterWait_b _ c)
  | cPoll _ c p => exact p.congr (by rw [c]; rfl) (afterWait_c _ c)
  | dPoll _ c p => exact p.congr (by rw [c]; rfl) (afterWait_d _ c)
  | bitLow _ c p => exact p.congr (by rw [c]; rfl) (afterWait_low _ c)
  | bitHigh _ c p _ => exact p.congr (by rw [c]; rfl) (afterWait_high _ c)
  | idle c | initDir c | initLvl c | aDir c | aLow c | aWait c | aRel c | bDir c | relDir c | relLvlOk c | relLvlErr c
  | validateOk c | validateErr c | decode c => simp [c, isPoll] at hp

/-- R36: BIT_HIGH takes a bit only while `i` names one. -/
theorem FsmMove.index_of_bit {u t : State} (m : FsmMove u t) (c : u.fsm = 0x0C#5) (hs : u.smp = true)
    (hl : u.lineLevel = (pollParamsAt u.cfg u.fsm).expected) : u.i.toNat < 40 := by
  cases m with
  | bitHigh _ _ _ hi => exact hi hs (by rw [hl, c]; rfl)
  | bPoll _ c' | cPoll _ c' | dPoll _ c' | bitLow _ c' => simp [c] at c'
  | idle c' | initDir c' | initLvl c' | aDir c' | aLow c' | aWait c' | aRel c' | bDir c' | relDir c' | relLvlOk c' | relLvlErr c'
  | validateOk c' | validateErr c' | decode c' => simp [c] at c'

/-- R12: what a step that answers keeps or makes true, from its four kinds. -/
theorem step_keeps {P : State → Prop} {s t : State} (h : step s = .next t) (hskip : P s.consume)
    (hreset : P s.consume.applyReset) (hread : s.fsm = 0x00#5 → ∀ v, P (s.consume.acceptRead v))
    (hmove : FsmMove s.consume t → P t) : P t := by
  rcases step_moves s t h with ⟨_, rfl⟩ | ⟨_, rfl | ⟨hf, v, _, rfl⟩ | m⟩
  · exact hreset
  · exact hskip
  · exact hread hf v
  · exact hmove m

/-- A reset is what a step runs exactly where it heads the inputs (R126). -/
theorem State.nextInstr_eq_none_iff (s : State) : s.nextInstr = none ↔ ∃ r, s.inputs = .reset :: r := by
  unfold State.nextInstr
  rcases s.inputs with _ | ⟨_ | w | _, r⟩ <;> simp

/-- R78: the idle FSM moves nowhere. -/
theorem State.goto_self (s : State) (c : BitVec 5) (h : s.fsm = c) : s.goto c = s := by
  subst h
  rfl

end Sys2Proof.Machine
end

section
/-! SUPPORT. Every step keeps `fsm` legal (R20), the status discipline (R22, R65, R111) and the pin driver (R29). -/

namespace Sys2Proof.Machine

/-! ### R19, R20: the FSM code -/

/-- R20: no move of the FSM goes to a reserved code. -/
theorem FsmMove.fsm_legal {u t : State} (m : FsmMove u t) : t.fsm.toNat ≤ 0x10 := by
  by_cases hp : isPoll u.fsm = true
  · have ⟨_, hc⟩ := (isPoll_iff u.fsm).mp hp
    cases m.pollMove hp with
    | timeout => simp
    | delay | miss => simp; omega
    | hit => have ⟨_, hc⟩ := afterWait_fsm_bounds u.busGetLevel; omega
  · cases m with
    | bPoll _ c | cPoll _ c | dPoll _ c | bitLow _ c | bitHigh _ c => simp [c, isPoll] at hp
    | _ => simp

/-- R19: a move leaves `smp` at 1 only in a poll state. -/
theorem FsmMove.smp_only_in_poll {u t : State} (h : u.smp = true → isPoll u.fsm = true) (m : FsmMove u t) :
    t.smp = true → isPoll t.fsm = true := by
  by_cases hp : isPoll u.fsm = true
  · cases m.pollMove hp with
    | timeout hs => simp [hs]
    | delay | miss => exact fun _ => hp
    | hit => simp
  · have hs : u.smp = false := by simpa using mt h hp
    cases m with
    | bPoll _ c | cPoll _ c | dPoll _ c | bitLow _ c | bitHigh _ c => simp [c, isPoll] at hp
    | _ => simp [hs]

theorem FsmInv.consume {s : State} (h : FsmInv s) : FsmInv s.consume := ⟨h.legal, h.smpOnlyInPoll⟩

/-- R19, R20: every step keeps the FSM's invariant. -/
theorem FsmInv.step {s t : State} (h : FsmInv s) (ht : step s = .next t) : FsmInv t :=
  step_keeps ht h.consume ⟨by simp [State.reset], by simp [State.reset]⟩ (fun _ _ => ⟨by simp, by simp⟩)
    fun m => ⟨m.fsm_legal, m.smp_only_in_poll h.consume.smpOnlyInPoll⟩

/-! ### R22, R65, R111, R112, R114: the status registers -/

/-- The discipline while a read is in progress. -/
theorem statusInv_of_busy {s : State} (hf : s.fsm ≠ 0x00#5) (hb : s.busy = true) (hd : s.done = false)
    (he : s.err = .ok ∨ s.err = .timeout ∧ (s.fsm = 0x0D#5 ∨ s.fsm = 0x0E#5)) : StatusInv s where
  busyOutsideIdle := by simp [hf, hb]
  notBoth _ := hd
  errNeverInvalid := by rcases he with e | ⟨e, _⟩ <;> simp [e]
  okUntilRelease _ hd he' := by
    rcases he with e | ⟨_, c | c⟩
    · exact e
    · exact absurd c hd
    · exact absurd c he'
  mismatchOnlyIdle := by rcases he with e | ⟨e, _⟩ <;> simp [e]

/-- The discipline in IDLE. -/
theorem statusInv_of_idle {s : State} (hf : s.fsm = 0x00#5) (hb : s.busy = false) (he : s.err ≠ .invalidArgument) : StatusInv s where
  busyOutsideIdle := by simp [hf, hb]
  notBoth := by simp [hb]
  errNeverInvalid := he
  okUntilRelease h := absurd hf h
  mismatchOnlyIdle _ := hf

/-- A read in progress: BUSY without DONE, and an error only after a timeout, in the release. -/
theorem StatusInv.of_fsm_ne {s : State} (h : StatusInv s) (hf : s.fsm ≠ 0x00#5) :
    s.busy = true ∧ s.done = false ∧ (s.err = .ok ∨ s.err = .timeout ∧ (s.fsm = 0x0D#5 ∨ s.fsm = 0x0E#5)) := by
  have hb := h.busyOutsideIdle.mpr hf
  refine ⟨hb, h.notBoth hb, ?_⟩
  cases he : s.err with
  | ok => exact .inl rfl
  | timeout =>
    refine .inr ⟨rfl, ?_⟩
    by_contra hc
    rw [not_or] at hc
    simp [h.okUntilRelease hf hc.1 hc.2] at he
  | checksumMismatch => exact absurd (h.mismatchOnlyIdle he) hf
  | invalidArgument => exact absurd he h.errNeverInvalid

theorem fsm_ne_idle_of_isPoll {c : BitVec 5} (h : isPoll c = true) : c ≠ 0x00#5 := by
  rintro rfl
  exact absurd h (by decide)

/-- In a wait `err` is OK: an error is raised on leaving it (R112). -/
theorem StatusInv.err_of_isPoll {s : State} (h : StatusInv s) (hp : isPoll s.fsm = true) : s.err = .ok := by
  rcases isPoll_cases _ hp with c | c | c | c | c <;> exact h.okUntilRelease (by simp [c]) (by simp [c]) (by simp [c])

/-- R65, R112: every move of the FSM keeps the status discipline. -/
theorem FsmMove.statusInv {u t : State} (h : StatusInv u) (m : FsmMove u t) : StatusInv t := by
  by_cases hp : isPoll u.fsm = true
  · have hf := fsm_ne_idle_of_isPoll hp
    obtain ⟨hb, hd, _⟩ := h.of_fsm_ne hf
    have he := h.err_of_isPoll hp
    cases m.pollMove hp with
    | timeout => exact statusInv_of_busy (by simp) hb hd (.inr ⟨rfl, .inl rfl⟩)
    | delay | miss => exact statusInv_of_busy hf hb hd (.inl he)
    | hit =>
      have ⟨hc, _⟩ := afterWait_fsm_bounds u.busGetLevel
      exact statusInv_of_busy (by rintro c; simp [c] at hc) (by simpa) (by simpa) (.inl (by simpa))
  · cases m with
    | bPoll _ c | cPoll _ c | dPoll _ c | bitLow _ c | bitHigh _ c => simp [c, isPoll] at hp
    | idle c => exact u.goto_self _ c ▸ h
    | relLvlErr | validateErr => exact statusInv_of_idle rfl rfl (by simp [h.errNeverInvalid])
    | decode => exact statusInv_of_idle rfl rfl (by simp [h.errNeverInvalid])
    | relLvlOk c ho =>
      obtain ⟨hb, hd, _⟩ := h.of_fsm_ne (by simp [c])
      exact statusInv_of_busy (by simp) hb hd (.inl ho)
    | initDir c | initLvl c | aDir c | aLow c | aWait c | aRel c | bDir c | relDir c | validateOk c =>
      obtain ⟨hb, hd, he⟩ := h.of_fsm_ne (by simp [c])
      exact statusInv_of_busy (by simp) hb hd (by simpa [c] using he)

theorem StatusInv.consume {s : State} (h : StatusInv s) : StatusInv s.consume :=
  ⟨h.busyOutsideIdle, h.notBoth, h.errNeverInvalid, h.okUntilRelease, h.mismatchOnlyIdle⟩

/-- R22, R65: every step keeps the status discipline. -/
theorem StatusInv.step {s t : State} (h : StatusInv s) (ht : step s = .next t) : StatusInv t :=
  step_keeps ht h.consume (statusInv_of_idle rfl rfl (by simp [State.reset]))
    (fun _ _ => statusInv_of_busy (by simp) rfl rfl (.inl rfl)) fun m => m.statusInv h.consume

/-! ### R29, R70, R71: the pin driver -/

/-- R70, R71, R82, R85: every move of the FSM takes the pin driver where its new state calls for it. -/
theorem FsmMove.pinInv {u t : State} (h : PinInv u) (m : FsmMove u t) : PinInv t := by
  obtain ⟨hdir, hout⟩ := h
  by_cases hp : isPoll u.fsm = true
  · have ⟨hl, hc⟩ := (isPoll_iff u.fsm).mp hp
    have hd : u.pinDir = .input := by rw [hdir, if_pos (by omega)]
    have ho : u.pinOut = true := by rw [hout, if_neg (by rintro (c | c) <;> simp [c] at hl)]
    cases m.pollMove hp with
    | timeout => exact ⟨hd, ho⟩
    | delay | miss => exact ⟨hdir, hout⟩
    | hit =>
      have ⟨hl, hc⟩ := afterWait_fsm_bounds u.busGetLevel
      refine ⟨?_, ?_⟩
      · rw [if_pos ⟨hl, hc⟩]; simpa
      · rw [if_neg (by rintro (c | c) <;> simp [c] at hl)]; simpa
  · cases m with
    | bPoll _ c | cPoll _ c | dPoll _ c | bitLow _ c | bitHigh _ c => simp [c, isPoll] at hp
    | idle c | initDir c | initLvl c | aDir c | aLow c | aWait c | aRel c | bDir c | relDir c | relLvlOk c | relLvlErr c
    | validateOk c | validateErr c | decode c => exact ⟨by simp [hdir, c], by simp [hout, c]⟩

theorem PinInv.consume {s : State} (h : PinInv s) : PinInv s.consume := ⟨h.dir, h.out⟩

/-- R29: every step keeps the pin driver where its FSM state calls for it; a READ is accepted where both states agree. -/
theorem PinInv.step {s t : State} (h : PinInv s) (ht : step s = .next t) : PinInv t :=
  step_keeps ht h.consume ⟨rfl, rfl⟩ (fun c _ => ⟨by simp [h.dir, c], by simp [h.out, c]⟩) fun m => m.pinInv h.consume

end Sys2Proof.Machine
end

section
/-! SUPPORT. Every step keeps the sampler's bounds (R24, R26, R73), frame space (R33, R94, R95) and the results (R23, R101 to R103). -/

namespace Sys2Proof.Machine

/-! ### R6: legal parameters -/

theorem Params.one_le_pG {p : Params} (h : p.legal = true) : 1 ≤ p.pG.toNat := by
  simp only [Params.legal, Bool.and_eq_true, decide_eq_true_eq] at h
  omega

/-- R6: no poll state's budget, passed by one poll, overflows 16 bits. -/
theorem Params.budget_add_pG_le {p : Params} (h : p.legal = true) (c : BitVec 5) :
    (pollParamsAt p c).budget.toNat + p.pG.toNat ≤ 65535 := by
  simp only [Params.legal, Bool.and_eq_true, decide_eq_true_eq] at h
  unfold pollParamsAt
  split <;> simp only [bPollParams, cPollParams, dPollParams, bitLowParams, bitHighParams] <;> omega

/-! ### R24, R73: the elapsed time of a wait -/

/-- The part of SamplerInv about `E` and `smp`. -/
structure WaitWithinBudget (s : State) : Prop where
  wholePolls : isPoll s.fsm = true → s.cfg.pG.toNat ∣ s.E.toNat
  elapsedBound : isPoll s.fsm = true → s.E.toNat + 1 ≤ (pollParamsAt s.cfg s.fsm).budget.toNat + s.cfg.pG.toNat
  sampleInBudget : isPoll s.fsm = true → s.smp = true → s.E.toNat < (pollParamsAt s.cfg s.fsm).budget.toNat

theorem WaitWithinBudget.of_not_isPoll {s : State} (h : isPoll s.fsm = false) : WaitWithinBudget s :=
  ⟨by simp [h], by simp [h], by simp [h]⟩

/-- R19: a wait just entered. -/
theorem WaitWithinBudget.of_entry {s : State} (hl : s.cfg.legal = true) (hE : s.E = 0#16) (hs : s.smp = false) : WaitWithinBudget s :=
  have := Params.one_le_pG hl
  ⟨by simp [hE], fun _ => by simp [hE]; omega, by simp [hs]⟩

/-- R24, R73: a sample taken within the budget adds `P_G` to `E` without wrapping. -/
theorem elapsed_add_pG {s : State} (hl : s.cfg.legal = true) (hE : s.E.toNat < (pollParamsAt s.cfg s.fsm).budget.toNat) :
    (s.E + s.cfg.pG).toNat = s.E.toNat + s.cfg.pG.toNat := by
  have := Params.budget_add_pG_le hl s.fsm
  rw [BitVec.toNat_add, Nat.mod_eq_of_lt (by omega)]

/-- R24, R73: every move keeps a wait within its budget. -/
theorem FsmMove.waitWithinBudget {u t : State} (hl : u.cfg.legal = true) (h : WaitWithinBudget u) (m : FsmMove u t) :
    WaitWithinBudget t := by
  by_cases hp : isPoll u.fsm = true
  · cases m.pollMove hp with
    | timeout => exact .of_not_isPoll rfl
    | delay _ hE => exact ⟨h.wholePolls, h.elapsedBound, fun _ _ => hE⟩
    | miss hs =>
      have hE := h.sampleInBudget hp hs
      have hadd := elapsed_add_pG hl hE
      refine ⟨fun _ => ?_, fun _ => ?_, by simp⟩
      · exact hadd ▸ Nat.dvd_add_self_right.mpr (h.wholePolls hp)
      · show (u.E + u.cfg.pG).toNat + 1 ≤ (pollParamsAt u.cfg u.fsm).budget.toNat + u.cfg.pG.toNat
        omega
    | hit => exact .of_entry (by simpa) (by simp) (by simp)
  · cases m with
    | bPoll _ c | cPoll _ c | dPoll _ c | bitLow _ c | bitHigh _ c => simp [c, isPoll] at hp
    | bDir => exact .of_entry hl rfl rfl
    | _ => exact .of_not_isPoll rfl

/-! ### R26: the bit index -/

/-- The part of SamplerInv about `i`. -/
structure IndexInPhase (s : State) : Prop where
  indexBound : s.i.toNat ≤ 40
  indexBeforeLoop : 0x01 ≤ s.fsm.toNat → s.fsm.toNat ≤ 0x0A → s.i = 0#6
  indexInLoop : s.fsm = 0x0B#5 ∨ s.fsm = 0x0C#5 → s.i.toNat ≤ 39
  indexAfterLoop : 0x0D ≤ s.fsm.toNat → s.err = .ok → s.i = 40#6

theorem samplerInv_iff (s : State) : SamplerInv s ↔ s.cfg.legal = true ∧ WaitWithinBudget s ∧ IndexInPhase s where
  mp h := ⟨h.cfgLegal, ⟨h.wholePolls, h.elapsedBound, h.sampleInBudget⟩,
    ⟨h.indexBound, h.indexBeforeLoop, h.indexInLoop, h.indexAfterLoop⟩⟩
  mpr := fun ⟨hl, w, x⟩ => ⟨hl, w.wholePolls, w.elapsedBound, w.sampleInBudget, x.indexBound, x.indexBeforeLoop, x.indexInLoop,
    x.indexAfterLoop⟩

/-- R26: the index is 0 before the loop and at its start. -/
theorem IndexInPhase.of_zero {s : State} (hi : s.i = 0#6) (hf : s.fsm.toNat ≤ 0x0C) : IndexInPhase s :=
  ⟨by simp [hi], fun _ _ => hi, fun _ => by simp [hi], fun h => by omega⟩

/-- R91: in the loop the index names a bit. -/
theorem IndexInPhase.of_loop {s : State} (hi : s.i.toNat ≤ 39) (hf : s.fsm = 0x0B#5 ∨ s.fsm = 0x0C#5) : IndexInPhase s := by
  refine ⟨by omega, ?_, fun _ => hi, ?_⟩ <;> rcases hf with c | c <;> simp [c]

/-- R26: past the loop the index is 40, unless an error is held. -/
theorem IndexInPhase.of_release {s : State} (hb : s.i.toNat ≤ 40) (hi : s.err = .ok → s.i = 40#6) (hf : 0x0D ≤ s.fsm.toNat) :
    IndexInPhase s := by
  refine ⟨hb, fun _ _ => by omega, ?_, fun _ => hi⟩
  rintro (c | c) <;> simp [c] at hf

/-- R26: in IDLE the index is bounded and nothing more. -/
theorem IndexInPhase.of_idle {s : State} (hb : s.i.toNat ≤ 40) (hf : s.fsm = 0x00#5) : IndexInPhase s :=
  ⟨hb, by simp [hf], by simp [hf], by simp [hf]⟩

theorem index_succ_toNat {i : BitVec 6} (h : i.toNat ≤ 39) : (i + 1#6).toNat = i.toNat + 1 := by
  rw [BitVec.toNat_add_of_lt (by simp; omega)]
  rfl

/-- R91: a received bit takes the index from the loop to its next bit, or to 40 and out of it. -/
theorem afterBit_indexInPhase {s : State} (h : s.i.toNat ≤ 39) : IndexInPhase (afterBit s) := by
  have hs := index_succ_toNat h
  by_cases hi : s.i + 1#6 = 40#6
  · exact .of_release (by simp [hs]; omega) (fun _ => hi) (by simp [hi])
  · refine .of_loop ?_ (.inl (if_neg hi))
    have : (s.i + 1#6).toNat ≠ 40 := fun e => hi (BitVec.eq_of_toNat_eq e)
    rw [afterBit_i]
    omega

/-- R26: a success keeps the index in its phase. -/
theorem afterWait_indexInPhase {s : State} (h : IndexInPhase s) (hp : isPoll s.fsm = true) : IndexInPhase (afterWait s) := by
  rcases isPoll_cases _ hp with c | c | c | c | c
  · exact afterWait_b s c ▸ .of_zero (h.indexBeforeLoop (by simp [c]) (by simp [c])) (by simp)
  · exact afterWait_c s c ▸ .of_zero (h.indexBeforeLoop (by simp [c]) (by simp [c])) (by simp)
  · exact afterWait_d s c ▸ .of_zero (h.indexBeforeLoop (by simp [c]) (by simp [c])) (by simp)
  · exact afterWait_low s c ▸ .of_loop (h.indexInLoop (.inl c)) (.inr rfl)
  · exact afterWait_high s c ▸ afterBit_indexInPhase (h.indexInLoop (.inr c))

/-- R26: every move keeps the index in its phase. -/
theorem FsmMove.indexInPhase {u t : State} (h : IndexInPhase u) (m : FsmMove u t) : IndexInPhase t := by
  by_cases hp : isPoll u.fsm = true
  · cases m.pollMove hp with
    | timeout => exact .of_release h.indexBound (by simp) (by simp)
    | delay | miss => exact ⟨h.indexBound, h.indexBeforeLoop, h.indexInLoop, h.indexAfterLoop⟩
    | hit => exact afterWait_indexInPhase ⟨h.indexBound, h.indexBeforeLoop, h.indexInLoop, h.indexAfterLoop⟩ hp
  · cases m with
    | bPoll _ c | cPoll _ c | dPoll _ c | bitLow _ c | bitHigh _ c => simp [c, isPoll] at hp
    | idle | relLvlErr | validateErr | decode => exact .of_idle h.indexBound rfl
    | initDir c | initLvl c | aDir c | aLow c | aWait c | aRel c | bDir c =>
      exact .of_zero (h.indexBeforeLoop (by simp [c]) (by simp [c])) (by simp)
    | relDir c | relLvlOk c | validateOk c => exact .of_release h.indexBound (h.indexAfterLoop (by simp [c])) (by simp)

theorem FsmMove.cfg_eq {u t : State} (m : FsmMove u t) : t.cfg = u.cfg := by
  by_cases hp : isPoll u.fsm = true
  · cases m.pollMove hp with
    | hit => simp
    | _ => rfl
  · cases m with
    | bPoll _ c | cPoll _ c | dPoll _ c | bitLow _ c | bitHigh _ c => simp [c, isPoll] at hp
    | _ => rfl

theorem SamplerInv.consume {s : State} (h : SamplerInv s) : SamplerInv s.consume :=
  ⟨h.cfgLegal, h.wholePolls, h.elapsedBound, h.sampleInBudget, h.indexBound, h.indexBeforeLoop, h.indexInLoop, h.indexAfterLoop⟩

/-- R24, R26: every move keeps the sampler's bounds. -/
theorem FsmMove.samplerInv {u t : State} (h : SamplerInv u) (m : FsmMove u t) : SamplerInv t := by
  rw [samplerInv_iff] at h ⊢
  obtain ⟨hl, w, x⟩ := h
  exact ⟨m.cfg_eq ▸ hl, m.waitWithinBudget hl w, m.indexInPhase x⟩

/-- R24, R26, R73: every step keeps the sampler's bounds. -/
theorem SamplerInv.step {s t : State} (h : SamplerInv s) (ht : step s = .next t) : SamplerInv t := by
  refine step_keeps ht h.consume ?_ (fun _ v => ?_) fun m => m.samplerInv h.consume
  · exact (samplerInv_iff _).mpr ⟨h.cfgLegal, .of_not_isPoll rfl, .of_zero rfl (by simp [State.reset])⟩
  · exact (samplerInv_iff _).mpr ⟨h.cfgLegal, .of_not_isPoll rfl, .of_zero rfl (by simp)⟩

/-! ### R33, R94, R95: frame space -/

/-- Frame space is kept by a move that leaves the frame and the index and enters no state of the read from outside it. -/
theorem FrameInv.of_same {s t : State} (h : FrameInv s) (hm : t.frame = s.frame) (hi : t.i = s.i)
    (hf : 0x01 ≤ t.fsm.toNat → t.fsm.toNat ≤ 0x0C → 0x01 ≤ s.fsm.toNat ∧ s.fsm.toNat ≤ 0x0C) : FrameInv t where
  wf := hm ▸ h.wf
  unreceivedZero h1 h2 j hj := hm ▸ h.unreceivedZero (hf h1 h2).1 (hf h1 h2).2 j (hi ▸ hj)

/-- R62: the cleared frame. -/
theorem FrameInv.of_cleared {s : State} (h : s.frame = []) : FrameInv s :=
  ⟨h ▸ rfl, fun _ _ j _ _ => by simp [h, streamBit]⟩

/-- R91, R94: a received bit is stored and the later ones stay 0. -/
theorem FrameInv.afterBit {s : State} (h : FrameInv s) (c : s.fsm = 0x0C#5) (hi : s.i.toNat < 40) : FrameInv (afterBit s) where
  wf := Memory.wf_write _ _ _ (by omega) h.wf
  unreceivedZero _ _ j hj h40 := by
    rw [afterBit_i, index_succ_toNat (by omega)] at hj
    rw [afterBit_frame, streamBit_storeBit _ h.wf, if_neg (by omega)]
    exact h.unreceivedZero (by simp [c]) (by simp [c]) j (by omega) h40

/-- R33, R94, R95: every move keeps frame space. -/
theorem FsmMove.frameInv {u t : State} (h : FrameInv u) (m : FsmMove u t) : FrameInv t := by
  by_cases hp : isPoll u.fsm = true
  · have ⟨hlo, hhi⟩ := (isPoll_iff u.fsm).mp hp
    cases m.pollMove hp with
    | timeout | delay | miss => exact h.of_same rfl rfl fun _ _ => ⟨by omega, hhi⟩
    | hit hs hl =>
      have h' : FrameInv u.busGetLevel := h.of_same rfl rfl .intro
      rcases isPoll_cases _ hp with c | c | c | c | c
      · exact afterWait_b u.busGetLevel c ▸ h'.of_same rfl rfl fun _ _ => ⟨by simp [c], by simp [c]⟩
      · exact afterWait_c u.busGetLevel c ▸ h'.of_same rfl rfl fun _ _ => ⟨by simp [c], by simp [c]⟩
      · exact afterWait_d u.busGetLevel c ▸ h'.of_same rfl rfl fun _ _ => ⟨by simp [c], by simp [c]⟩
      · exact afterWait_low u.busGetLevel c ▸ h'.of_same rfl rfl fun _ _ => ⟨by simp [c], by simp [c]⟩
      · exact afterWait_high u.busGetLevel c ▸ h'.afterBit c (m.index_of_bit c hs hl)
  · cases m with
    | bPoll _ c | cPoll _ c | dPoll _ c | bitLow _ c | bitHigh _ c => simp [c, isPoll] at hp
    | idle c | initDir c | initLvl c | aDir c | aLow c | aWait c | aRel c | bDir c | relDir c | relLvlOk c | relLvlErr c
    | validateOk c | validateErr c | decode c => exact h.of_same rfl rfl (by simp [c])

theorem FrameInv.consume {s : State} (h : FrameInv s) : FrameInv s.consume := ⟨h.wf, h.unreceivedZero⟩

/-- R33, R94, R95: every step keeps frame space. -/
theorem FrameInv.step {s t : State} (h : FrameInv s) (ht : step s = .next t) : FrameInv t :=
  step_keeps ht h.consume (.of_cleared rfl) (fun _ _ => .of_cleared rfl) fun m => m.frameInv h.consume

/-! ### R23, R66, R101 to R103: the results -/

/-- R100: VALIDATE's test is the checksum relation. -/
theorem checksum_eq_iff (m : Memory) : checksum m = m.read 4 ↔ checksumHolds m := by
  simp [checksum, checksumHolds, ← BitVec.toNat_inj, eq_comm]

/-- While no read has ended, TEMP and HUM are 0 and no error of VALIDATE is held. -/
theorem resultInv_of_not_done {s : State} (hd : s.done = false) (hz : s.temp = 0#16 ∧ s.hum = 0#16)
    (he : s.err ≠ .checksumMismatch) (hc : s.fsm = 0x10#5 → checksumHolds s.frame) : ResultInv s :=
  ⟨fun _ => hz, by simp [hd], by simp [hd], fun e => absurd e he, hc⟩

/-- A read that ended in an error left TEMP and HUM at 0. -/
theorem resultInv_of_err {s : State} (hf : s.fsm = 0x00#5) (hz : s.temp = 0#16 ∧ s.hum = 0#16) (he : s.err ≠ .ok)
    (hc : s.err = .checksumMismatch → ¬checksumHolds s.frame) : ResultInv s :=
  ⟨fun _ => hz, fun _ e => absurd e he, fun _ e => absurd e he, hc, by simp [hf]⟩

/-- A read in progress has TEMP and HUM at 0. -/
theorem ResultInv.zero_of_fsm_ne {s : State} (h : ResultInv s) (hs : StatusInv s) (hf : s.fsm ≠ 0x00#5) :
    s.temp = 0#16 ∧ s.hum = 0#16 :=
  h.zeroUnlessOk (by simp [(hs.of_fsm_ne hf).2.1])

/-- R65, R101, R103: every move of the FSM keeps the results. -/
theorem FsmMove.resultInv {u t : State} (hs : StatusInv u) (h : ResultInv u) (m : FsmMove u t) : ResultInv t := by
  by_cases hp : isPoll u.fsm = true
  · have hf := fsm_ne_idle_of_isPoll hp
    obtain ⟨_, hd, _⟩ := hs.of_fsm_ne hf
    have hz := h.zero_of_fsm_ne hs hf
    have he := hs.err_of_isPoll hp
    have hc : u.fsm = 0x10#5 → checksumHolds u.frame := h.decodeChecked
    cases m.pollMove hp with
    | timeout => exact resultInv_of_not_done hd hz (by simp) (by simp)
    | delay | miss => exact resultInv_of_not_done hd hz (by simp [he]) hc
    | hit =>
      have ⟨_, hc⟩ := afterWait_fsm_bounds u.busGetLevel
      exact resultInv_of_not_done (by simpa) (by simpa) (by simp [he]) (fun c => by simp [c] at hc)
  · cases m with
    | bPoll _ c | cPoll _ c | dPoll _ c | bitLow _ c | bitHigh _ c => simp [c, isPoll] at hp
    | idle c => exact u.goto_self _ c ▸ h
    | initDir c | initLvl c | aDir c | aLow c | aWait c | aRel c | bDir c | relDir c | relLvlOk c =>
      have hf : u.fsm ≠ 0x00#5 := by simp [c]
      exact resultInv_of_not_done (hs.of_fsm_ne hf).2.1 (h.zero_of_fsm_ne hs hf) (fun e => hf (hs.mismatchOnlyIdle e)) (by simp)
    | validateOk c hsum =>
      have hf : u.fsm ≠ 0x00#5 := by simp [c]
      exact resultInv_of_not_done (hs.of_fsm_ne hf).2.1 (h.zero_of_fsm_ne hs hf) (fun e => hf (hs.mismatchOnlyIdle e))
        fun _ => (checksum_eq_iff u.frame).mp hsum
    | relLvlErr c he =>
      have hf : u.fsm ≠ 0x00#5 := by simp [c]
      exact resultInv_of_err rfl (h.zero_of_fsm_ne hs hf) he fun e => absurd (hs.mismatchOnlyIdle e) hf
    | validateErr c hsum =>
      exact resultInv_of_err rfl (h.zero_of_fsm_ne hs (by simp [c])) (by simp) fun _ => mt (checksum_eq_iff u.frame).mpr hsum
    | decode c =>
      have he : u.err = .ok := hs.okUntilRelease (by simp [c]) (by simp [c]) (by simp [c])
      exact ⟨fun hn => absurd ⟨rfl, he⟩ hn, fun _ _ => h.decodeChecked c, fun _ _ => ⟨rfl, rfl⟩, by simp [he], by simp⟩

theorem ResultInv.consume {s : State} (h : ResultInv s) : ResultInv s.consume :=
  ⟨h.zeroUnlessOk, h.okChecksum, h.okValues, h.mismatchChecksum, h.decodeChecked⟩

/-- R23, R66: every step keeps the results; a reset and a READ clear them. -/
theorem ResultInv.step {s t : State} (hs : StatusInv s) (h : ResultInv s) (ht : step s = .next t) : ResultInv t :=
  step_keeps ht h.consume (resultInv_of_not_done rfl ⟨rfl, rfl⟩ (by simp [State.reset]) (by simp [State.reset]))
    (fun _ _ => resultInv_of_not_done rfl ⟨rfl, rfl⟩ (by simp) (by simp)) fun m => m.resultInv hs.consume h.consume

end Sys2Proof.Machine
end

section
/-! SUPPORT. Every step keeps a read's time under the latest time of its FSM state (R135), and its time and its requests in step (R75). -/

namespace Sys2Proof.Machine

/-! ### R75, R135: the latest time of each FSM state -/

/-- R75: a number of whole polls that a budget admits lasts no longer than the budget's wait. -/
theorem le_waitTime {p : Params} {B : BitVec 16} {x : Nat} (hg : 1 ≤ p.pG.toNat) (hd : p.pG.toNat ∣ x)
    (hx : x + 1 ≤ B.toNat + p.pG.toNat) : x ≤ waitTime p B := by
  obtain ⟨k, rfl⟩ := hd
  rw [waitTime, pollCount, Nat.mul_comm]
  exact Nat.mul_le_mul_right _ ((Nat.le_div_iff_mul_le hg).mpr (by rw [Nat.mul_comm]; omega))

/-- R89, R97: a success of a wait at its last poll is on time for the next state. -/
theorem latestEntry_afterWait {s : State} (hp : isPoll s.fsm = true) (hi : s.fsm = 0x0C#5 → s.i.toNat ≤ 39) :
    latestEntry s.cfg s.fsm s.i.toNat + waitTime s.cfg (pollParamsAt s.cfg s.fsm).budget ≤
      latestEntry s.cfg (afterWait s).fsm (afterWait s).i.toNat := by
  rcases isPoll_cases _ hp with c | c | c | c | c
  · simp [afterWait_b s c, c, latestEntry, pollParamsAt, bPollParams]
  · simp [afterWait_c s c, c, latestEntry, pollParamsAt, cPollParams]
  · simp [afterWait_d s c, c, latestEntry, pollParamsAt, dPollParams]
    omega
  · simp [afterWait_low s c, c, latestEntry, pollParamsAt, bitLowParams]
  · have hsucc := index_succ_toNat (hi c)
    have hbits := Nat.add_one_mul s.i.toNat (waitTime s.cfg s.cfg.pBLow + waitTime s.cfg s.cfg.pBHigh)
    rw [afterWait_high s c, afterBit_fsm, afterBit_i, hsucc]
    split
    · next h40 =>
      rw [← hsucc, h40] at hbits
      simp [c, latestEntry, pollParamsAt, bitHighParams] at hbits ⊢
      omega
    · simp [c, latestEntry, pollParamsAt, bitHighParams]
      omega

/-- R89, R97, R98: a wait that times out at its last poll is on time for the release. -/
theorem latestEntry_timeout {p : Params} {c : BitVec 5} {i : Nat} (hp : isPoll c = true) (hi : c = 0x0B#5 ∨ c = 0x0C#5 → i ≤ 39) :
    latestEntry p c i + waitTime p (pollParamsAt p c).budget ≤ latestEntry p 0x0D#5 i := by
  have hbits (h : i ≤ 39) : (i + 1) * (waitTime p p.pBLow + waitTime p p.pBHigh) ≤
      40 * (waitTime p p.pBLow + waitTime p p.pBHigh) := Nat.mul_le_mul_right _ (by omega)
  rcases isPoll_cases _ hp with rfl | rfl | rfl | rfl | rfl
  · simp [latestEntry, pollParamsAt, bPollParams]; omega
  · simp [latestEntry, pollParamsAt, cPollParams]; omega
  · simp [latestEntry, pollParamsAt, dPollParams]; omega
  · have := hbits (hi (.inl rfl))
    rw [Nat.add_one_mul] at this
    simp [latestEntry, pollParamsAt, bitLowParams]; omega
  · have := hbits (hi (.inr rfl))
    rw [Nat.add_one_mul] at this
    simp [latestEntry, pollParamsAt, bitHighParams]; omega

/-- R73: the time a wait has used is the elapsed time, and one `P_G` more once its poll's delay is over. -/
theorem timeInv_iff_of_isPoll {s : State} (hp : isPoll s.fsm = true) :
    TimeInv s ↔ s.tBlk ≤ latestEntry s.cfg s.fsm s.i.toNat + (s.E.toNat + (if s.smp then s.cfg.pG.toNat else 0)) := by
  rw [TimeInv, waitSoFar, if_pos hp]

/-- R135: outside the waits no time of a wait is used. -/
theorem timeInv_iff_of_not_isPoll {s : State} (hp : ¬isPoll s.fsm = true) :
    TimeInv s ↔ s.tBlk ≤ latestEntry s.cfg s.fsm s.i.toNat := by
  rw [TimeInv, waitSoFar, if_neg hp, Nat.add_zero]

theorem timeInv_of_le {s : State} (h : s.tBlk ≤ latestEntry s.cfg s.fsm s.i.toNat) : TimeInv s := Nat.le_add_right_of_le h

/-- R135: every move of the FSM keeps the time under the latest time of its state. -/
theorem FsmMove.timeInv {u t : State} (hs : SamplerInv u) (h : TimeInv u) (m : FsmMove u t) : TimeInv t := by
  by_cases hp : isPoll u.fsm = true
  · rw [timeInv_iff_of_isPoll hp] at h
    have hg := Params.one_le_pG hs.cfgLegal
    have hd := hs.wholePolls hp
    cases m.pollMove hp with
    | timeout hsmp =>
      have hw := le_waitTime hg hd (hs.elapsedBound hp)
      have hl := latestEntry_timeout (p := u.cfg) hp hs.indexInLoop
      simp [hsmp] at h
      exact timeInv_of_le (by simp; omega)
    | delay hsmp =>
      rw [timeInv_iff_of_isPoll (by exact hp)]
      simp [hsmp] at h ⊢
      omega
    | miss hsmp =>
      have hadd := elapsed_add_pG hs.cfgLegal (hs.sampleInBudget hp hsmp)
      rw [timeInv_iff_of_isPoll (by exact hp)]
      simpa [hadd, hsmp, -BitVec.toNat_add] using h
    | hit hsmp =>
      have hE := hs.sampleInBudget hp hsmp
      have hw := le_waitTime (B := (pollParamsAt u.cfg u.fsm).budget) hg (Nat.dvd_add_self_right.mpr hd) (by omega)
      have hl := latestEntry_afterWait (s := u.busGetLevel) hp fun c => hs.indexInLoop (.inr c)
      simp [hsmp] at h hl
      exact timeInv_of_le (by simp; omega)
  · rw [timeInv_iff_of_not_isPoll hp] at h
    cases m with
    | bPoll _ c | cPoll _ c | dPoll _ c | bitLow _ c | bitHigh _ c => simp [c, isPoll] at hp
    | idle c | initDir c | initLvl c | aDir c | aLow c | aWait c | aRel c | bDir c | relDir c | relLvlOk c | relLvlErr c
    | validateOk c | validateErr c | decode c => exact timeInv_of_le (by simpa [c, latestEntry] using h)

theorem TimeInv.consume {s : State} (h : TimeInv s) : TimeInv s.consume := h

/-- R135: every step keeps the time under the latest time of its state. -/
theorem TimeInv.step {s t : State} (hs : SamplerInv s) (h : TimeInv s) (ht : step s = .next t) : TimeInv t :=
  step_keeps ht h.consume (timeInv_of_le (Nat.zero_le _)) (fun _ _ => timeInv_of_le (Nat.zero_le _))
    fun m => m.timeInv hs.consume h.consume

/-! ### R75, R89, R97: the requests of a read -/

/-- R75: besides `fixed` requests and the one `pending` sample, the requests come in pairs, one pair for each `P_G` of delay. -/
def RequestsBalance (s : State) (pending fixed : Nat) : Prop :=
  s.cfg.pTStart.toNat ≤ s.tBlk ∧
    s.cfg.pG.toNat * (s.trace.length + pending) = s.cfg.pG.toNat * fixed + 2 * (s.tBlk - s.cfg.pTStart.toNat)

/-- R75: one more request is one more of the fixed ones. -/
theorem RequestsBalance.request {s t : State} {n f : Nat} (h : RequestsBalance s n f) (hc : t.cfg = s.cfg) (hT : t.tBlk = s.tBlk)
    (ht : t.trace.length = s.trace.length + 1) : RequestsBalance t n (f + 1) := by
  obtain ⟨hle, heq⟩ := h
  refine ⟨by rw [hc, hT]; exact hle, ?_⟩
  rw [hc, hT, ht, Nat.mul_add_one, Nat.add_right_comm, Nat.mul_add_one]
  omega

/-- R73: the delay of a poll is half of its pair, and the sample is pending. -/
theorem RequestsBalance.delay {s t : State} {f : Nat} (h : RequestsBalance s 0 f) (hc : t.cfg = s.cfg)
    (hT : t.tBlk = s.tBlk + s.cfg.pG.toNat) (ht : t.trace.length = s.trace.length + 1) : RequestsBalance t 1 f := by
  obtain ⟨hle, heq⟩ := h
  refine ⟨by rw [hc, hT]; omega, ?_⟩
  rw [hc, hT, ht, Nat.mul_add_one, Nat.mul_add_one]
  simp only [Nat.add_zero] at heq
  omega

/-- R73: the sample of a poll completes its pair. -/
theorem RequestsBalance.sample {s t : State} {f : Nat} (h : RequestsBalance s 1 f) (hc : t.cfg = s.cfg) (hT : t.tBlk = s.tBlk)
    (ht : t.trace.length = s.trace.length + 1) : RequestsBalance t 0 f := by
  obtain ⟨hle, heq⟩ := h
  exact ⟨by rw [hc, hT]; exact hle, by rw [hc, hT, ht]; exact heq⟩

/-- RequestInv up to B_DIR. -/
theorem requestInv_of_start {s : State} (hlo : 0x01 ≤ s.fsm.toNat) (hhi : s.fsm.toNat ≤ 0x07)
    (hn : s.trace.length = fixedRequests s.fsm) (hT : 0x06 ≤ s.fsm.toNat → s.tBlk = s.cfg.pTStart.toNat) : RequestInv s :=
  ⟨fun _ _ => hn, fun h _ => hT h, fun _ _ => by omega, fun c => by simp [c] at hlo⟩

/-- RequestInv from B_POLL to DECODE. -/
theorem requestInv_of_balance {s : State} {n f : Nat} (hlo : 0x08 ≤ s.fsm.toNat) (hn : n = if s.smp then 1 else 0)
    (hf : f = fixedRequests s.fsm) (hb : RequestsBalance s n f) : RequestInv s := by
  subst hn hf
  exact ⟨fun _ _ => by omega, fun _ _ => by omega, fun _ _ => hb, fun c => by simp [c] at hlo⟩

/-- RequestInv in IDLE. -/
theorem requestInv_of_idle {s : State} (hf : s.fsm = 0x00#5) (hb : s.done = true → RequestsBalance s 0 9) : RequestInv s :=
  ⟨by simp [hf], by simp [hf], by simp [hf], fun _ hd => hb hd⟩

theorem RequestInv.balance {s : State} (h : RequestInv s) (hlo : 0x08 ≤ s.fsm.toNat) (hhi : s.fsm.toNat ≤ 0x10) :
    RequestsBalance s (if s.smp then 1 else 0) (fixedRequests s.fsm) :=
  have ⟨_, _, hb, _⟩ := h
  hb hlo hhi

theorem fixedRequests_wait {c : BitVec 5} (hlo : 0x08 ≤ c.toNat) (hhi : c.toNat ≤ 0x0D) : fixedRequests c = 7 := by
  revert c
  decide

/-- R75, R89: every move of the FSM keeps the requests of a read in step with its time. -/
theorem FsmMove.requestInv {u t : State} (hf : FsmInv u) (hT : TimeInv u) (h : RequestInv u) (m : FsmMove u t) : RequestInv t := by
  by_cases hp : isPoll u.fsm = true
  · have ⟨hlo, hhi⟩ := (isPoll_iff u.fsm).mp hp
    have hn : 7 = fixedRequests u.fsm := (fixedRequests_wait hlo (by omega)).symm
    have hb := h.balance hlo (by omega)
    rw [← hn] at hb
    cases m.pollMove hp with
    | timeout hs =>
      rw [hs] at hb
      exact requestInv_of_balance (n := 0) (f := 7) (by simp) (by simp [hs]) rfl hb
    | delay hs =>
      rw [hs] at hb
      exact requestInv_of_balance (n := 1) hlo rfl hn (hb.delay rfl (by simp; omega) rfl)
    | miss hs =>
      rw [hs] at hb
      exact requestInv_of_balance (n := 0) hlo rfl hn (hb.sample rfl rfl rfl)
    | hit hs =>
      have ⟨hl, hc⟩ := afterWait_fsm_bounds u.busGetLevel
      rw [hs] at hb
      exact requestInv_of_balance (n := 0) hl (by simp) (fixedRequests_wait hl hc).symm (hb.sample (by simp) (by simp) (by simp))
  · have hs : u.smp = false := by simpa using mt hf.smpOnlyInPoll hp
    have htime := (timeInv_iff_of_not_isPoll hp).mp hT
    have ⟨hstart, hpulse, _, _⟩ := h
    have hbal (hlo : 0x08 ≤ u.fsm.toNat) : RequestsBalance u 0 (fixedRequests u.fsm) := by
      simpa [hs] using h.balance hlo hf.legal
    cases m with
    | bPoll _ c | cPoll _ c | dPoll _ c | bitLow _ c | bitHigh _ c => simp [c, isPoll] at hp
    | idle c => exact u.goto_self _ c ▸ h
    | initDir c | initLvl c | aDir c | aLow c =>
      exact requestInv_of_start (by simp) (by simp) (by simp [hstart, c, fixedRequests]) (by simp)
    | aWait c =>
      simp [c, latestEntry] at htime
      exact requestInv_of_start (by simp) (by simp) (by simp [hstart, c, fixedRequests]) (by simp [htime])
    | aRel c => exact requestInv_of_start (by simp) (by simp) (by simp [hstart, c, fixedRequests]) (by simp [hpulse, c])
    | bDir c =>
      refine requestInv_of_balance (n := 0) (f := 7) (by simp) (by simp) rfl ⟨?_, ?_⟩ <;>
        simp [hpulse, hstart, c, fixedRequests]
    | relDir c | relLvlOk c =>
      exact requestInv_of_balance (by simp) (by simp [hs]) (by simp [c, fixedRequests])
        ((hbal (by simp [c])).request rfl rfl rfl)
    | relLvlErr c =>
      have hb := hbal (by simp [c])
      rw [c] at hb
      exact requestInv_of_idle rfl fun _ => hb.request rfl rfl rfl
    | validateOk c =>
      have hb := hbal (by simp [c])
      rw [c] at hb
      exact requestInv_of_balance (by simp) (by simp [hs]) rfl hb
    | validateErr c | decode c =>
      have hb := hbal (by simp [c])
      rw [c] at hb
      exact requestInv_of_idle rfl fun _ => hb

theorem RequestInv.consume {s : State} (h : RequestInv s) : RequestInv s.consume := h

/-- R75, R89, R97: every step keeps the requests of a read in step with its time. -/
theorem RequestInv.step {s t : State} (hf : FsmInv s) (hT : TimeInv s) (h : RequestInv s) (ht : step s = .next t) : RequestInv t := by
  refine step_keeps ht h.consume (requestInv_of_idle rfl (by simp [State.reset])) (fun _ _ => ?_) fun m =>
    m.requestInv hf.consume hT.consume h.consume
  exact requestInv_of_start (by simp) (by simp) rfl (by simp)

end Sys2Proof.Machine
end

section
/-! SUPPORT. Everything one operation can do when it answers, whatever `fsm` holds. -/

namespace Sys2Proof.Machine

/-- What `exec` makes of a state, by operation: what FsmMove says of a step, without the premise on `fsm`, and the operations of the
host's words and of the bus beside it. -/
inductive ExecMove (u : State) : Instr → State → Prop where
  | readIdle (v : Variant) : u.fsm = 0x00#5 → ExecMove u (.read v) (u.acceptRead v)
  | readBusy (v : Variant) : u.fsm ≠ 0x00#5 → ExecMove u (.read v) u
  | nocmd (x : BitVec 7) : ExecMove u (.nocmd x) u
  | reservedCmd (v : Variant) (r : BitVec 6) : ExecMove u (.reservedCmd v r) u
  | setdir (d : PinDir) : ExecMove u (.setdir d) (u.busSetDir d)
  | setlvl (v : Level) : ExecMove u (.setlvl v) (u.busSetLevel v)
  | getlvl : ExecMove u .getlvl u.busGetLevel
  | delay (n : BitVec 32) : ExecMove u (.delay n) (u.busDelay n)
  | idle : ExecMove u .idle (u.goto 0x00#5)
  | initDir : ExecMove u .initDir ((u.busSetDir .outputOpenDrain).goto 0x02#5)
  | initLvl : ExecMove u .initLvl ((u.busSetLevel true).goto 0x03#5)
  | aDir : ExecMove u .aDir ((u.busSetDir .outputOpenDrain).goto 0x04#5)
  | aLow : ExecMove u .aLow ((u.busSetLevel false).goto 0x05#5)
  | aWait : ExecMove u .aWait ((u.busDelay u.cfg.pTStart).goto 0x06#5)
  | aRel : ExecMove u .aRel ((u.busSetLevel true).goto 0x07#5)
  | bDir : ExecMove u .bDir ((u.busSetDir .input).enterPoll 0x08#5)
  | bPoll (t : State) : PollMove (bPollParams u.cfg) (fun v => v.enterPoll 0x09#5) u t → ExecMove u .bPoll t
  | cPoll (t : State) : PollMove (cPollParams u.cfg) (fun v => v.enterPoll 0x0A#5) u t → ExecMove u .cPoll t
  | dPoll (t : State) : PollMove (dPollParams u.cfg) (fun v => v.enterPoll 0x0B#5) u t → ExecMove u .dPoll t
  | bitLow (t : State) :
      PollMove (bitLowParams u.cfg) (fun v => State.enterPoll { v with lowDur := v.E } 0x0C#5) u t → ExecMove u .bitLow t
  | bitHigh (t : State) : PollMove (bitHighParams u.cfg) afterBit u t → ExecMove u .bitHigh t
  | relDir : ExecMove u .relDir ((u.busSetDir .outputOpenDrain).goto 0x0E#5)
  | relLvlOk : u.err = .ok → ExecMove u .relLvl ((u.busSetLevel true).goto 0x0F#5)
  | relLvlErr : u.err ≠ .ok → ExecMove u .relLvl (u.busSetLevel true).finish
  | validateOk : checksum u.frame = u.frame.read 4 → ExecMove u .validate (u.goto 0x10#5)
  | validateErr : checksum u.frame ≠ u.frame.read 4 → ExecMove u .validate { u with err := .checksumMismatch }.finish
  | decode :
      ExecMove u .decode
        (State.finish
          { u with
            temp := decodeField u.variant (u.frame.read 2) (u.frame.read 3)
            hum := decodeField u.variant (u.frame.read 0) (u.frame.read 1) })

/-- An operation that answers makes one of its moves. -/
theorem exec_move {x : Instr} {u t : State} (h : exec x u = .next t) : ExecMove u x t := by
  cases x with
  | read v =>
    by_cases c : u.fsm = 0x00#5
    · rw [exec, execRead, if_pos c] at h
      cases h; exact .readIdle v c
    · rw [exec, execRead, if_neg c] at h
      cases h; exact .readBusy v c
  | nocmd x => cases h; exact .nocmd x
  | reservedCmd v r => cases h; exact .reservedCmd v r
  | setdir d => cases h; exact .setdir d
  | setlvl v => cases h; exact .setlvl v
  | getlvl => cases h; exact .getlvl
  | delay n => cases h; exact .delay n
  | idle => cases h; exact .idle
  | initDir => cases h; exact .initDir
  | initLvl => cases h; exact .initLvl
  | aDir => cases h; exact .aDir
  | aLow => cases h; exact .aLow
  | aWait => cases h; exact .aWait
  | aRel => cases h; exact .aRel
  | bDir => cases h; exact .bDir
  | bPoll => exact .bPoll t (poll_move _ (fun v => v.enterPoll 0x09#5) u t h)
  | cPoll => exact .cPoll t (poll_move _ (fun v => v.enterPoll 0x0A#5) u t h)
  | dPoll => exact .dPoll t (poll_move _ (fun v => v.enterPoll 0x0B#5) u t h)
  | bitLow => exact .bitLow t (poll_move _ (fun v => State.enterPoll { v with lowDur := v.E } 0x0C#5) u t h)
  | bitHigh => exact .bitHigh t (bitHigh_move u t h).1
  | relDir => cases h; exact .relDir
  | relLvl =>
    have e := (guardErr_next (u.busSetLevel true) _ t h).2
    by_cases ho : u.err = .ok
    · rw [if_pos (by simpa using ho)] at e
      cases e; exact .relLvlOk ho
    · rw [if_neg (by simpa using ho)] at e
      cases e; exact .relLvlErr ho
  | validate =>
    by_cases hc : checksum u.frame = u.frame.read 4
    · rw [exec, execValidate, if_pos hc] at h
      cases h; exact .validateOk hc
    · rw [exec, execValidate, if_neg hc] at h
      cases h; exact .validateErr hc
  | decode => cases h; exact .decode
  | reservedFsm c => cases h

end Sys2Proof.Machine
end

section
/-! SUPPORT. The registers no operation but READ and DECODE reads: a change of them passes through every other operation. -/

namespace Sys2Proof.Machine

/-- R17, R21, R23: `s` with the variant latch and the results changed. -/
def State.mapLatches (fv : Variant → Variant) (ft fh : BitVec 16 → BitVec 16) (s : State) : State :=
  { s with variant := fv s.variant, temp := ft s.temp, hum := fh s.hum }

section
variable (fv : Variant → Variant) (ft fh : BitVec 16 → BitVec 16)

/-- R73: a poll reads neither, if its continuation does not. -/
theorem poll_mapLatches (q : PollParams) (k : State → Result)
    (hk : ∀ t, k (t.mapLatches fv ft fh) = mapNext (State.mapLatches fv ft fh) (k t)) (s : State) :
    poll q k (s.mapLatches fv ft fh) = mapNext (State.mapLatches fv ft fh) (poll q k s) := by
  unfold poll
  simp only [apply_ite (mapNext (State.mapLatches fv ft fh)), ← hk]
  rfl

/-- R91: a received bit reads neither. -/
theorem bitReceived_mapLatches (t : State) :
    bitReceived (t.mapLatches fv ft fh) = mapNext (State.mapLatches fv ft fh) (bitReceived t) := by
  unfold bitReceived
  rw [apply_ite (mapNext (State.mapLatches fv ft fh))]
  rfl

/-- R111: the guard of `err` reads neither. -/
theorem guardErr_mapLatches (s : State) (k : Result) :
    guardErr (s.mapLatches fv ft fh) (mapNext (State.mapLatches fv ft fh) k) = mapNext (State.mapLatches fv ft fh) (guardErr s k) := by
  by_cases he : s.err = .invalidArgument
  · simp [guardErr, State.mapLatches, he, mapNext]
  · rw [guardErr_of_ne s k he, guardErr_of_ne _ _ (by exact he)]

/-- R99: REL_LVL reads neither. -/
theorem execRelLvl_mapLatches (s : State) :
    execRelLvl (s.mapLatches fv ft fh) = mapNext (State.mapLatches fv ft fh) (execRelLvl s) := by
  unfold execRelLvl
  rw [← guardErr_mapLatches, mapNext, apply_ite (State.mapLatches fv ft fh)]
  rfl

/-- R100: VALIDATE reads neither. -/
theorem execValidate_mapLatches (s : State) :
    execValidate (s.mapLatches fv ft fh) = mapNext (State.mapLatches fv ft fh) (execValidate s) := by
  unfold execValidate
  rw [mapNext, apply_ite (State.mapLatches fv ft fh)]
  rfl

/-- R17, R21, R23: no operation but READ and DECODE reads the variant latch, TEMP or HUM. -/
theorem exec_mapLatches (x : Instr) (s : State) (hd : x ≠ .decode) (hr : ∀ v, x ≠ .read v) :
    exec x (s.mapLatches fv ft fh) = mapNext (State.mapLatches fv ft fh) (exec x s) := by
  cases x with
  | read v => exact absurd rfl (hr v)
  | decode => exact absurd rfl hd
  | bPoll => exact poll_mapLatches fv ft fh _ (fun v => .next (v.enterPoll 0x09#5)) (fun _ => rfl) s
  | cPoll => exact poll_mapLatches fv ft fh _ (fun v => .next (v.enterPoll 0x0A#5)) (fun _ => rfl) s
  | dPoll => exact poll_mapLatches fv ft fh _ (fun v => .next (v.enterPoll 0x0B#5)) (fun _ => rfl) s
  | bitLow => exact poll_mapLatches fv ft fh _ (fun v => .next (State.enterPoll { v with lowDur := v.E } 0x0C#5)) (fun _ => rfl) s
  | bitHigh => exact poll_mapLatches fv ft fh _ bitReceived (bitReceived_mapLatches fv ft fh) s
  | relLvl => exact execRelLvl_mapLatches fv ft fh s
  | validate => exact execValidate_mapLatches fv ft fh s
  | _ => rfl

end

end Sys2Proof.Machine
end

section
/-! PROOF. The family "state": the frames of the operations, the invariants of a run kept by every step, the reserved codes, and the
registers that are outputs only. -/

namespace Sys2Proof.Machine

/-- Settles O38: each invariant is kept by its own lemma, from the invariants it needs. -/
theorem everyStepKeepsTheInvariants : Obligations.EveryStepKeepsTheInvariants := by
  unfold Obligations.EveryStepKeepsTheInvariants
  intro s t h ht
  exact
    { fsm := h.fsm.step ht
      status := h.status.step ht
      pin := h.pin.step ht
      sampler := h.sampler.step ht
      frame := h.frame.step ht
      result := h.result.step h.status ht
      time := h.time.step h.sampler ht
      request := h.request.step h.fsm h.time ht }

/-- Settles O25: by the operation's move. -/
theorem frameOfStatusAndResults : Obligations.FrameOfStatusAndResults := by
  unfold Obligations.FrameOfStatusAndResults
  intro x s t h
  cases exec_move h with
  | readBusy v c => simp
  | readIdle v c => simp [c]
  | bPoll _ p | cPoll _ p | dPoll _ p | bitLow _ p | bitHigh _ p => cases p <;> simp
  | _ => simp

/-- Settles O26: by the operation's move. -/
theorem frameOfTheSampler : Obligations.FrameOfTheSampler := by
  unfold Obligations.FrameOfTheSampler
  intro x s t h
  cases exec_move h with
  | bPoll _ p | cPoll _ p | dPoll _ p | bitLow _ p | bitHigh _ p => cases p <;> simp
  | _ => simp

/-- Settles O28: by the operation's move. -/
theorem frameOfThePinAndTheBus : Obligations.FrameOfThePinAndTheBus := by
  unfold Obligations.FrameOfThePinAndTheBus
  intro x s t h
  cases exec_move h with
  | bPoll _ p | cPoll _ p | dPoll _ p | bitLow _ p | bitHigh _ p => cases p <;> simp
  | _ => simp

/-- Settles O30: no move of the FSM goes to a reserved code, and no step but a reset answers from one. -/
theorem fsmCodesStayLegal : Obligations.FsmCodesStayLegal := by
  unfold Obligations.FsmCodesStayLegal
  refine ⟨fun s t h ht => h.step ht, fun s t ht => ?_, fun s t hr hn ht => ?_⟩
  · exact step_keeps (P := fun t => t.fsm ≠ s.fsm → t.fsm.toNat ≤ 0x10) ht (fun hne => absurd rfl hne) (by simp [State.reset])
      (by simp) fun m _ => m.fsm_legal
  · rcases step_next s t ht with ⟨hnone, _⟩ | ⟨_, _, _, hlegal, _⟩
    · exact hn hnone
    · omega

/-- Settles O31. -/
theorem statusDisciplineIsKept : Obligations.StatusDisciplineIsKept := fun _ _ h ht => h.step ht

/-- Settles O32. The premise that `fsm` is legal is not needed: no move is made from a reserved code. -/
theorem pinFollowsTheFsm : Obligations.PinFollowsTheFsm := fun _ _ _ h ht => h.step ht

/-- Settles O33. The premise that `fsm` is legal is not needed: no move is made from a reserved code. -/
theorem samplerBoundsAreKept : Obligations.SamplerBoundsAreKept := fun _ _ _ h ht => h.step ht

/-- Settles O35: StatusInv rules out an ended read in every state but IDLE. -/
theorem resultsAreOfACheckedFrame : Obligations.ResultsAreOfACheckedFrame := fun _ _ hs h ht => h.step hs ht

/-- Settles O49: a change of the variant latch alone. -/
theorem onlyDecodeReadsTheVariant : Obligations.OnlyDecodeReadsTheVariant :=
  fun x s v hd hr => exec_mapLatches (fun _ => v) id id x s hd hr

/-- Settles O50: a change of TEMP and HUM alone. -/
theorem resultsFeedNothingBack : Obligations.ResultsFeedNothingBack :=
  fun x s t h hd hr => exec_mapLatches id (fun _ => t) (fun _ => h) x s hd hr

/-- Settles O7: RESERVED_FSM is a fault, and the guard of `fsm` comes before the operation of any step but a reset. -/
theorem reservedCodesFault : Obligations.ReservedCodesFault := by
  unfold Obligations.ReservedCodesFault
  refine ⟨fun _ _ => rfl, fun s he hf hr => step_reserved s he hf fun hn => ?_⟩
  obtain ⟨r, hi⟩ := s.nextInstr_eq_none_iff.mp hn
  exact hr r hi

end Sys2Proof.Machine
end

section
/-! PROOF. The family "memory": which operations write which byte of frame space, and the invariant of frame space kept by every
step. -/

namespace Sys2Proof.Machine

/-- R94: storing stream bit `i` leaves every byte but `i / 8` alone. -/
theorem read_storeBit_other (m : Memory) (i b : Nat) (bit : Bool) (h : b ≠ i / 8) : (storeBit m i bit).read b = m.read b :=
  m.read_write_other (i / 8) b _ h

/-- R31, R36: only READ and BIT_HIGH write frame space. -/
theorem ExecMove.frame_eq {x : Instr} {u t : State} (m : ExecMove u x t) (hr : ∀ v, x ≠ .read v) (hb : x ≠ .bitHigh) :
    t.frame = u.frame := by
  cases m with
  | readIdle v | readBusy v => exact absurd rfl (hr v)
  | bitHigh => exact absurd rfl hb
  | bPoll _ p | cPoll _ p | dPoll _ p | bitLow _ p => cases p <;> rfl
  | _ => rfl

/-- R91, R94: of frame space BIT_HIGH writes the byte `i / 8` at most. -/
theorem ExecMove.read_frame_of_bitHigh {u t : State} (m : ExecMove u .bitHigh t) (b : Nat) (h : b ≠ u.i.toNat / 8) :
    t.frame.read b = u.frame.read b := by
  cases m with
  | bitHigh _ p =>
    cases p with
    | timeout | delay | miss => rfl
    | hit => exact read_storeBit_other u.frame u.i.toNat b _ h

/-- R33, R62: a READ taken in IDLE clears frame space. -/
theorem ExecMove.frame_of_readIdle {v : Variant} {u t : State} (m : ExecMove u (.read v) t) (h : u.fsm = 0x00#5) :
    t.frame = Memory.cleared := by
  cases m with
  | readIdle => rfl
  | readBusy _ hne => exact absurd h hne

/-- Settles O27: by the operation's move. -/
theorem frameOfFrameSpace : Obligations.FrameOfFrameSpace := by
  unfold Obligations.FrameOfFrameSpace
  intro x s t h
  have m := exec_move h
  refine ⟨fun hr hb b => ?_, fun hx b hne => ?_, fun v hx hf b => ?_⟩
  · rw [m.frame_eq hr hb]
  · subst hx
    exact m.read_frame_of_bitHigh b hne
  · subst hx
    rw [m.frame_of_readIdle hf, Memory.read_cleared]

/-- Settles O34: a reset and READ clear the frame, and the FSM's moves keep it. -/
theorem frameSpaceIsKept : Obligations.FrameSpaceIsKept := fun _ _ h ht => h.step ht

end Sys2Proof.Machine
end

section
/-! SUPPORT. The fields of the CMD and BUSREQ words, and what each decoder makes of the words the encoder writes. -/

namespace Sys2Proof

@[simp] theorem variantOfBit_variantBit (v : Variant) : variantOfBit (variantBit v) = v := by
  cases v <;> rfl

@[simp] theorem variantBit_variantOfBit (b : BitVec 1) : variantBit (variantOfBit b) = b := by
  rcases b.eq_zero_or_eq_one with rfl | rfl <;> rfl

/-- R49: a CMD word is its reserved bits, VAR and GO. -/
theorem cmdWord_eta (w : BitVec 8) : w.extractLsb' 2 6 ++ w.extractLsb' 1 1 ++ w.extractLsb' 0 1 = w := by
  have h : w.extractLsb' 2 6 ++ w.extractLsb' 1 1 = w.extractLsb' 1 7 := BitVec.extractLsb'_append_extractLsb'_eq_extractLsb' rfl
  rw [h]
  exact BitVec.extractLsb'_append_extractLsb'

/-- R50: GO = 0 is NOCMD, whatever bits 7:1 hold. -/
theorem decodeCmd_go_zero (x : BitVec 7) : decodeCmd (x ++ 0#1) = .nocmd x := by
  have hgo : (x ++ 0#1 : BitVec 8).extractLsb' 0 1 = 0#1 := BitVec.extractLsb'_append_eq_right
  have hx : (x ++ 0#1 : BitVec 8).extractLsb' 1 7 = x := BitVec.extractLsb'_append_eq_left
  rw [decodeCmd, if_pos hgo, hx]

/-- R49, R50: GO = 1 is READ where the reserved bits are 0, RESERVED_CMD elsewhere. -/
theorem decodeCmd_go_one (r : BitVec 6) (v : Variant) :
    decodeCmd (r ++ variantBit v ++ 1#1) = if r = 0#6 then .read v else .reservedCmd v r := by
  have hgo : (r ++ variantBit v ++ 1#1 : BitVec 8).extractLsb' 0 1 = 1#1 := BitVec.extractLsb'_append_eq_right
  have hvar : (r ++ variantBit v ++ 1#1 : BitVec 8).extractLsb' 1 1 = variantBit v :=
    (BitVec.extractLsb'_append_eq_of_le (by decide)).trans BitVec.extractLsb'_append_eq_right
  have hres : (r ++ variantBit v ++ 1#1 : BitVec 8).extractLsb' 2 6 = r :=
    (BitVec.extractLsb'_append_eq_of_le (by decide)).trans BitVec.extractLsb'_append_eq_left
  rw [decodeCmd, hgo, if_neg (by decide), hvar, hres, variantOfBit_variantBit]

/-- R49: the two shapes of a CMD word. -/
theorem cmdWord_cases (w : BitVec 8) :
    (∃ x : BitVec 7, w = x ++ 0#1) ∨ ∃ (r : BitVec 6) (v : Variant), w = r ++ variantBit v ++ 1#1 := by
  rw [← cmdWord_eta w]
  rcases (w.extractLsb' 0 1).eq_zero_or_eq_one with h | h <;> rw [h]
  · exact .inl ⟨_, rfl⟩
  · exact .inr ⟨_, variantOfBit (w.extractLsb' 1 1), by rw [variantBit_variantOfBit]⟩

/-- R49, R50: every CMD word is the word of the row it decodes to. -/
theorem encode_decodeCmd (w : BitVec 8) : encode (decodeCmd w) = .cmd w ∧ (decodeCmd w).wf = true := by
  rcases cmdWord_cases w with ⟨x, rfl⟩ | ⟨r, v, rfl⟩
  · rw [decodeCmd_go_zero]
    exact ⟨rfl, rfl⟩
  · rw [decodeCmd_go_one]
    split
    case isTrue h => exact ⟨by rw [h]; rfl, rfl⟩
    case isFalse h => exact ⟨rfl, bne_iff_ne.mpr h⟩

/-- R49, R62: the two words that are READs. -/
theorem eq_of_decodeCmd_eq_read {w : BitVec 8} {v : Variant} (h : decodeCmd w = .read v) : w = 0x01#8 ∨ w = 0x03#8 := by
  have hw : encode (.read v) = .cmd w := h ▸ (encode_decodeCmd w).1
  injection hw with hw
  cases v
  · exact .inl hw.symm
  · exact .inr hw.symm

/-- R53: a request word holds its op and its argument. -/
@[simp] theorem busWord_op (op : BitVec 2) (arg : BitVec 32) : (busWord op arg).extractLsb' 32 2 = op :=
  BitVec.extractLsb'_append_eq_left

@[simp] theorem busWord_arg (op : BitVec 2) (arg : BitVec 32) : (busWord op arg).extractLsb' 0 32 = arg :=
  BitVec.extractLsb'_append_eq_right

/-- R53: a request word is its op and its argument. -/
theorem busWord_eta (w : BitVec 34) : busWord (w.extractLsb' 32 2) (w.extractLsb' 0 32) = w :=
  BitVec.extractLsb'_append_extractLsb'

theorem op_cases (op : BitVec 2) : op = 0#2 ∨ op = 1#2 ∨ op = 2#2 ∨ op = 3#2 := by
  revert op
  decide

@[simp] theorem decodeBus_setdirWord (m : PinDir) : decodeBus (setdirWord m) = .ok (.setdir m) := by
  cases m <;> rfl

@[simp] theorem decodeBus_setlvlWord (v : Level) : decodeBus (setlvlWord v) = .ok (.setlvl v) := by
  cases v <;> rfl

@[simp] theorem decodeBus_getlvlWord : decodeBus getlvlWord = .ok .getlvl := rfl

@[simp] theorem decodeBus_delayWord (n : BitVec 32) : decodeBus (delayWord n) = .ok (.delay n) := by
  simp [decodeBus, delayWord]

/-- R53: a request word that decodes is the word of the row it decodes to. -/
theorem encode_of_decodeBus {w : BitVec 34} {x : Instr} (h : decodeBus w = .ok x) : encode x = .bus w ∧ x.wf = true := by
  rw [← busWord_eta w] at h ⊢
  generalize w.extractLsb' 32 2 = op at h ⊢
  generalize w.extractLsb' 0 32 = arg at h ⊢
  simp only [decodeBus, busWord_op, busWord_arg] at h
  rcases op_cases op with rfl | rfl | rfl | rfl <;> simp only [BitVec.reduceEq, reduceIte] at h
  -- SETDIR, SETLVL and GETLVL: the arguments of a row
  iterate 3 · split_ifs at h <;> cases h <;> subst arg <;> exact ⟨rfl, rfl⟩
  · -- DELAY: every argument
    cases h
    exact ⟨rfl, rfl⟩

/-- R55: every FSM code is the word of the row it decodes to. -/
theorem encode_decodeFsm (c : BitVec 5) : encode (decodeFsm c) = .fsm c ∧ (decodeFsm c).wf = true := by
  revert c
  decide

end Sys2Proof
end

section
/-! PROOF. The family "encoding": the decoder and the encoder are inverse to each other, the CMD words that change nothing, and the
STATUS word. -/

namespace Sys2Proof.Machine

/-- Settles O2: by the operation; RESERVED_CMD and RESERVED_FSM are well formed where no other row has their word. -/
theorem decodeAfterEncode : Obligations.DecodeAfterEncode := by
  unfold Obligations.DecodeAfterEncode
  intro x hx
  cases x with
  | read v => exact congrArg Except.ok (decodeCmd_go_one 0#6 v)
  | nocmd x => exact congrArg Except.ok (decodeCmd_go_zero x)
  | reservedCmd v r => exact congrArg Except.ok ((decodeCmd_go_one r v).trans (if_neg (bne_iff_ne.mp hx)))
  | setdir m => exact decodeBus_setdirWord m
  | setlvl v => exact decodeBus_setlvlWord v
  | getlvl => exact decodeBus_getlvlWord
  | delay n => exact decodeBus_delayWord n
  | reservedFsm c => exact congrArg Except.ok (decodeFsm_reserved c (of_decide_eq_true hx))
  | _ => rfl

/-- Settles O3: each format's words are the words of the rows they decode to. -/
theorem encodeAfterDecode : Obligations.EncodeAfterDecode := by
  unfold Obligations.EncodeAfterDecode
  intro w x h
  cases w with
  | cmd w => cases h; exact encode_decodeCmd w
  | bus w => exact encode_of_decodeBus h
  | fsm c => cases h; exact encode_decodeFsm c

/-- Settles O1: each word is evaluated. -/
theorem wordsOfTheEncodingTables : Obligations.WordsOfTheEncodingTables := by
  unfold Obligations.WordsOfTheEncodingTables
  decide

/-- R50: a CMD word with GO = 0 or a reserved bit set has no effect. -/
theorem exec_decodeCmd_of_not_read {w : BitVec 8} (hw : w.getLsbD 0 = false ∨ 4 ≤ w.toNat) (s : State) :
    exec (decodeCmd w) s = .next s := by
  rcases exec_decodeCmd w s with e | ⟨v, hv, _⟩
  · exact e
  · rcases eq_of_decodeCmd_eq_read hv with rfl | rfl <;> exact absurd hw (by decide)

/-- Settles O10: a word that is no READ leaves the state to the step, which uses the word up. -/
theorem otherCommandWordsChangeNothing : Obligations.OtherCommandWordsChangeNothing := by
  unfold Obligations.OtherCommandWordsChangeNothing
  refine ⟨fun _ _ => rfl, fun _ _ _ => rfl, fun s w r he hf hi hw => ?_⟩
  rw [step_legal s _ he hf (s.nextInstr_of_inputs_cmd w r hi), exec_decodeCmd_of_not_read hw, State.consume_cons s _ r hi]

theorem bitOf_getLsbD_zero (b : Bool) : (bitOf b).getLsbD 0 = b := by
  cases b <;> rfl

theorem State.statusWord_busy (s : State) : s.statusWord.getLsbD 0 = s.busy :=
  BitVec.getLsbD_append.trans (bitOf_getLsbD_zero s.busy)

theorem State.statusWord_done (s : State) : s.statusWord.getLsbD 1 = s.done :=
  BitVec.getLsbD_append.trans (BitVec.getLsbD_append.trans (bitOf_getLsbD_zero s.done))

/-- R51: above DONE and BUSY stands the code of `err`, with zeros over it. -/
theorem State.statusWord_upper (s : State) (start len : Nat) (h : 2 ≤ start) :
    s.statusWord.extractLsb' start len = (0#4 ++ errCode s.err).extractLsb' (start - 2) len :=
  (BitVec.extractLsb'_append_eq_of_le (by omega)).trans (BitVec.extractLsb'_append_eq_of_le (by omega))

theorem State.statusWord_err (s : State) : s.statusWord.extractLsb' 2 2 = errCode s.err :=
  (s.statusWord_upper 2 2 (by decide)).trans BitVec.extractLsb'_append_eq_right

theorem State.statusWord_zeros (s : State) : s.statusWord.extractLsb' 4 4 = 0#4 :=
  (s.statusWord_upper 4 4 (by decide)).trans BitVec.extractLsb'_append_eq_left

/-- Settles O21: STATUS is the concatenation of its fields. -/
theorem statusWordLayout : Obligations.StatusWordLayout := by
  unfold Obligations.StatusWordLayout
  intro s
  refine ⟨s.statusWord_busy, s.statusWord_done, s.statusWord_err.trans ?_, s.statusWord_zeros⟩
  cases s.err <;> rfl

end Sys2Proof.Machine
end

section
/-! SUPPORT. What the host's words and the rest in IDLE come to as steps, and what the host reads of the result. -/

namespace Sys2Proof.Machine

/-- R62, R63: READ starts a read in IDLE and does nothing elsewhere. -/
theorem exec_read (v : Variant) (s : State) : exec (.read v) s = .next (if s.fsm = 0x00#5 then s.acceptRead v else s) :=
  (apply_ite Host.Outcome.next (s.fsm = 0x00#5) (s.acceptRead v) s).symm

/-- R49: the words of READ A and READ B. -/
theorem decodeCmd_read (v : Variant) : decodeCmd (if v = .variantA then 0x01#8 else 0x03#8) = .read v := by
  cases v <;> rfl

/-- R50, R63: outside IDLE no CMD word has an effect. -/
theorem exec_decodeCmd_of_fsm_ne (w : BitVec 8) {s : State} (hf : s.fsm ≠ 0x00#5) : exec (decodeCmd w) s = .next s := by
  rcases exec_decodeCmd w s with e | ⟨_, _, c, _⟩
  · exact e
  · exact absurd c hf

/-- R62: the step that accepts a READ word. -/
theorem step_of_read {s : State} {w : BitVec 8} {r : List Input} {v : Variant} (hf : s.fsm = 0x00#5) (he : s.err ≠ .invalidArgument)
    (hi : s.inputs = .cmd w :: r) (hw : decodeCmd w = .read v) : step s = .next (s.consume.acceptRead v) := by
  have hx : s.nextInstr = some (.read v) := hw ▸ s.nextInstr_of_inputs_cmd w r hi
  rw [step_legal s _ he (by simp [hf]) hx, exec_read, State.consume_fsm, if_pos hf]

/-- R78: IDLE is left by no move of the FSM. -/
theorem FsmMove.eq_of_idle {u t : State} (m : FsmMove u t) (c : u.fsm = 0x00#5) : t = u := by
  cases m with
  | idle _ => exact u.goto_self _ c
  | initDir c' | initLvl c' | aDir c' | aLow c' | aWait c' | aRel c' | bDir c' | bPoll _ c' | cPoll _ c' | dPoll _ c' | bitLow _ c'
  | bitHigh _ c' | relDir c' | relLvlOk c' | relLvlErr c' | validateOk c' | validateErr c' | decode c' => simp [c] at c'

/-- R65, R78: in IDLE a step that is no reset and no READ only uses up the outside's input. -/
theorem step_idle {s t : State} (h : step s = .next t) (hf : s.fsm = 0x00#5) (hn : s.nextInstr ≠ none)
    (hr : ∀ v, s.nextInstr ≠ some (.read v)) : t = s.consume := by
  rcases step_moves s t h with ⟨hnone, _⟩ | ⟨_, e | ⟨_, v, hv, _⟩ | m⟩
  · exact absurd hnone hn
  · exact e
  · exact absurd hv (hr v)
  · exact m.eq_of_idle hf

/-- R65: a finished read has left the FSM in IDLE, with BUSY 0. -/
theorem StatusInv.idle_of_done {s : State} (h : StatusInv s) (hd : s.done = true) : s.fsm = 0x00#5 ∧ s.busy = false := by
  have hb : s.busy = false := Bool.eq_false_iff.mpr fun hb => by simp [h.notBoth hb] at hd
  exact ⟨not_not.mp fun hf => by simp [h.busyOutsideIdle.mpr hf] at hb, hb⟩

/-- R66: the result of a read that is not finished. -/
theorem State.result_of_not_done {s : State} (hd : s.done = false) : s.result = .ok .pending := by
  simp [State.result, hd]

/-- R66: a finished read's result is chosen by `err`. -/
theorem State.result_of_ok {s : State} (hd : s.done = true) (he : s.err = .ok) : s.result = .ok (.ok s.temp s.hum) := by
  simp [State.result, hd, he]
theorem State.result_of_timeout {s : State} (hd : s.done = true) (he : s.err = .timeout) : s.result = .ok .errTimeout := by
  simp [State.result, hd, he]
theorem State.result_of_checksumMismatch {s : State} (hd : s.done = true) (he : s.err = .checksumMismatch) :
    s.result = .ok .errChecksumMismatch := by
  simp [State.result, hd, he]

@[simp] theorem State.consume_result (s : State) : s.consume.result = s.result := rfl

/-- R62: what an accepted READ leaves of the state before it is the configuration, the pin driver and what the outside does next. -/
theorem State.acceptRead_congr {s u : State} (v : Variant) (hcfg : s.cfg = u.cfg) (hdir : s.pinDir = u.pinDir)
    (hout : s.pinOut = u.pinOut) (hi : s.inputs = u.inputs) (ha : s.answers = u.answers) (hd : s.draws = u.draws) :
    s.acceptRead v = u.acceptRead v :=
  State.ext hcfg rfl rfl rfl rfl rfl rfl rfl rfl rfl rfl rfl rfl rfl hdir hout hi ha hd rfl rfl

/-- R29: in IDLE the line is released. -/
theorem PinInv.released {s : State} (h : PinInv s) (hf : s.fsm = 0x00#5) : s.pinDir = .outputOpenDrain ∧ s.pinOut = true :=
  ⟨by simp [h.dir, hf], by simp [h.out, hf]⟩

end Sys2Proof.Machine
end

section
/-! SUPPORT. Runs of a wait (R73, R75): one poll, the polls that miss, the wait that succeeds. -/

namespace Sys2Proof.Machine

/-- Two runs, one after the other. -/
theorem run_trans {m n : Nat} {s t u : State} (h : core.run m s = .next t) (h' : core.run n t = .next u) :
    core.run (m + n) s = .next u := (run_add m n s t h).trans h'

theorem run_one {s t : State} (h : step s = .next t) : core.run 1 s = .next t := run_succ 0 s t h

/-- R12: a step that nothing from the outside takes part in, by the code in `fsm`. -/
theorem step_of_fsm {s t : State} {c : BitVec 5} (hc : s.fsm = c) (hi : s.inputs = []) (he : s.err ≠ .invalidArgument)
    (h : exec (decodeFsm c) s = .next t) : step s = .next t :=
  (step_quiet s hi he).trans (hc ▸ h)

/-- A run that begins with such a step. -/
theorem run_fsm {n : Nat} {s t u : State} {c : BitVec 5} (hc : s.fsm = c) (hi : s.inputs = []) (he : s.err ≠ .invalidArgument)
    (h : exec (decodeFsm c) s = .next t) (hr : core.run n t = .next u) : core.run (n + 1) s = .next u :=
  (run_succ n s t (step_of_fsm hc hi he h)).trans hr

/-! ### The polls by their levels -/

/-- R73: the requests of more polls come later, that is in front. -/
theorem pollEvents_append (p : Params) (l l' : List Level) : pollEvents p (l ++ l') = pollEvents p l' ++ pollEvents p l := by
  simp [pollEvents]

/-- R73: two requests for each poll. -/
@[simp] theorem pollEvents_length (p : Params) (l : List Level) : (pollEvents p l).length = 2 * l.length := by
  simp [pollEvents, Nat.mul_comm]

@[simp] theorem waitLevels_length (e : Level) {k : Nat} (h : 1 ≤ k) : (waitLevels e k).length = k := by
  simp [waitLevels, h]

/-- Polls in a row add up. -/
theorem afterPolls_afterPolls (s : State) (l l' r r' : List Level) :
    afterPolls (afterPolls s l r) l' r' = afterPolls s (l ++ l') r' := by
  ext1 <;> simp [afterPolls, pollEvents_append, Nat.add_mul, Nat.add_assoc]

theorem afterPolls_nil {s : State} {r : List Level} (h : s.answers = r) : afterPolls s [] r = s := by
  subst h
  simp [afterPolls, pollEvents]

/-- R73: a poll's delay and its sample. -/
theorem busGetLevel_after_delay {u : State} {v : Level} {r : List Level} (h : u.answers = v :: r) :
    State.busGetLevel { u.busDelay (u.cfg.pG.zeroExtend 32) with smp := true } = { afterPolls u [v] r with smp := true } := by
  have hp : u.cfg.pG.toNat % 4294967296 = u.cfg.pG.toNat := Nat.mod_eq_of_lt (by omega)
  ext1 <;> simp [State.busGetLevel, State.lineLevel, afterPolls, pollEvents, h, hp]

/-! ### One poll -/

/-- R73: a step in a poll state makes one of the poll's moves. -/
theorem step_poll {s : State} (hp : isPoll s.fsm = true) (he : s.err ≠ .invalidArgument) (hi : s.inputs = []) (hx : s.i.toNat ≤ 39) :
    ∃ t, step s = .next t ∧ PollMove (pollParamsAt s.cfg s.fsm) afterWait s t := by
  have ⟨_, hhi⟩ := (isPoll_iff s.fsm).mp hp
  obtain ⟨t, ht⟩ := exec_decodeFsm_answers s (by omega) he fun _ => hx
  exact ⟨t, (step_quiet s hi he).trans ht, (fsm_move s t ht).pollMove hp⟩

/-- A poll is about to begin in `s`, within the wait's budget. -/
structure PollDue (s : State) : Prop where
  poll : isPoll s.fsm = true
  errNeverInvalid : s.err ≠ .invalidArgument
  quiet : s.inputs = []
  index : s.i.toNat ≤ 39
  smp : s.smp = false
  inBudget : s.E < (pollParamsAt s.cfg s.fsm).budget

/-- R73: a poll within the budget begins with its delay. -/
theorem PollDue.step_delay {s : State} (h : PollDue s) :
    step s = .next { s.busDelay (s.cfg.pG.zeroExtend 32) with smp := true } := by
  obtain ⟨t, ht, m⟩ := step_poll h.poll h.errNeverInvalid h.quiet h.index
  cases m with
  | delay => exact ht
  | timeout _ hB => exact absurd h.inBudget (BitVec.not_lt.mpr hB)
  | miss hs | hit hs => simp [h.smp] at hs

/-- R73: a poll within the budget takes two steps, its delay and one of the moves of its sample. -/
theorem PollDue.run_poll {s : State} (h : PollDue s) :
    ∃ t, core.run 2 s = .next t ∧
      PollMove (pollParamsAt s.cfg s.fsm) afterWait { s.busDelay (s.cfg.pG.zeroExtend 32) with smp := true } t := by
  obtain ⟨t, ht, m⟩ :=
    step_poll (s := { s.busDelay (s.cfg.pG.zeroExtend 32) with smp := true }) h.poll h.errNeverInvalid h.quiet h.index
  exact ⟨t, run_trans (run_one h.step_delay) (run_one ht), m⟩

/-- R73: a poll whose sample does not match adds `P_G` to the elapsed time. -/
theorem PollDue.run_miss {s : State} {r : List Level} (h : PollDue s)
    (ha : s.answers = (!(pollParamsAt s.cfg s.fsm).expected) :: r) :
    core.run 2 s = .next { afterPolls s [!(pollParamsAt s.cfg s.fsm).expected] r with E := s.E + s.cfg.pG } := by
  obtain ⟨t, ht, m⟩ := h.run_poll
  cases m with
  | miss =>
    rw [ht, busGetLevel_after_delay ha, ← h.smp]
    rfl
  | hit _ hl => simp [State.lineLevel, ha] at hl
  | timeout hs | delay hs => simp at hs

/-- R73: a poll whose sample matches ends the wait. -/
theorem PollDue.run_hit {s : State} {r : List Level} (h : PollDue s) (ha : s.answers = (pollParamsAt s.cfg s.fsm).expected :: r) :
    core.run 2 s = .next (afterWait { afterPolls s [(pollParamsAt s.cfg s.fsm).expected] r with smp := true }) := by
  obtain ⟨t, ht, m⟩ := h.run_poll
  cases m with
  | hit => rw [ht, busGetLevel_after_delay ha]
  | miss _ hl => simp [State.lineLevel, ha] at hl
  | timeout hs | delay hs => simp at hs

/-! ### A wait -/

/-- R75: each of the K(B) polls of a wait begins within the budget. -/
theorem polls_lt_budget {p : Params} {B : BitVec 16} {m : Nat} (hg : 1 ≤ p.pG.toNat) (h : m + 1 ≤ pollCount p B) :
    m * p.pG.toNat < B.toNat := by
  have := (Nat.le_div_iff_mul_le hg).mp h
  rw [Nat.add_one_mul] at this
  omega

/-- R24, R75: the elapsed time of a wait does not wrap. -/
theorem elapsed_toNat {p : Params} {B : BitVec 16} {m : Nat} (hg : 1 ≤ p.pG.toNat) (h : m + 1 ≤ pollCount p B) :
    (BitVec.ofNat 16 (m * p.pG.toNat)).toNat = m * p.pG.toNat := by
  have := polls_lt_budget hg h
  exact Nat.mod_eq_of_lt (by omega)

/-- R75: `s` after the first `m` polls of its wait, all of which missed. -/
def afterMisses (s : State) (m : Nat) (r : List Level) : State :=
  { afterPolls s (List.replicate m (!(pollParamsAt s.cfg s.fsm).expected)) r with E := BitVec.ofNat 16 (m * s.cfg.pG.toNat) }

theorem afterMisses_zero {s : State} {r : List Level} (hE : s.E = 0#16) (ha : s.answers = r) : afterMisses s 0 r = s := by
  rw [afterMisses, List.replicate_zero, afterPolls_nil ha, Nat.zero_mul, ← hE]

/-- R73, R75: one more miss adds `P_G` to the elapsed time. -/
theorem afterMisses_succ (s : State) (m : Nat) (r r' : List Level) :
    afterMisses s (m + 1) r =
      { afterPolls (afterMisses s m r') [!(pollParamsAt s.cfg s.fsm).expected] r with E := (afterMisses s m r').E + s.cfg.pG } := by
  have hE : (afterMisses s m r').E + s.cfg.pG = BitVec.ofNat 16 ((m + 1) * s.cfg.pG.toNat) := by
    rw [Nat.add_one_mul, BitVec.ofNat_add, BitVec.ofNat_toNat, BitVec.setWidth_eq]
    rfl
  rw [hE, afterMisses, List.replicate_succ', ← afterPolls_afterPolls s _ _ r' r]
  rfl

/-- R75: after `m` polls of a wait, the next one is due if the budget has one more. -/
theorem WaitBegins.pollDue_afterMisses {s : State} (h : WaitBegins s) {m : Nat}
    (hm : m + 1 ≤ pollCount s.cfg (pollParamsAt s.cfg s.fsm).budget) (r : List Level) : PollDue (afterMisses s m r) :=
  ⟨h.poll, h.errNeverInvalid, h.quiet, h.index, h.smp, by
    have hg := Params.one_le_pG h.legal
    show (BitVec.ofNat 16 _).toNat < _
    rw [elapsed_toNat hg hm]
    exact polls_lt_budget hg hm⟩

/-- R75: the polls of a wait that miss. -/
theorem WaitBegins.run_misses {s : State} (h : WaitBegins s) {m : Nat} {r : List Level}
    (hm : m ≤ pollCount s.cfg (pollParamsAt s.cfg s.fsm).budget)
    (ha : s.answers = List.replicate m (!(pollParamsAt s.cfg s.fsm).expected) ++ r) :
    core.run (2 * m) s = .next (afterMisses s m r) := by
  induction m generalizing r with
  | zero => exact congrArg Host.Outcome.next (afterMisses_zero h.elapsed ha).symm
  | succ m ih =>
    have hrun := ih (r := (!(pollParamsAt s.cfg s.fsm).expected) :: r) (by omega) (by simp [ha, List.replicate_succ'])
    have hmiss := (h.pollDue_afterMisses hm ((!(pollParamsAt s.cfg s.fsm).expected) :: r)).run_miss rfl
    rw [afterMisses_succ s m r ((!(pollParamsAt s.cfg s.fsm).expected) :: r)]
    exact run_trans hrun hmiss

/-- R75, R76: a wait that succeeds at its poll `k`. -/
theorem WaitBegins.run_success {s : State} (h : WaitBegins s) {k : Nat} {r : List Level} (h1 : 1 ≤ k)
    (hk : k ≤ pollCount s.cfg (pollParamsAt s.cfg s.fsm).budget)
    (ha : s.answers = waitLevels (pollParamsAt s.cfg s.fsm).expected k ++ r) :
    core.run (2 * k) s = .next
      (afterWait
        { afterPolls s (waitLevels (pollParamsAt s.cfg s.fsm).expected k) r with
          smp := true, E := BitVec.ofNat 16 ((k - 1) * s.cfg.pG.toNat) }) := by
  obtain ⟨m, rfl⟩ := Nat.exists_eq_add_of_le' h1
  have hrun := h.run_misses (m := m) (r := (pollParamsAt s.cfg s.fsm).expected :: r) (by omega) (by simp [ha, waitLevels])
  have hhit := (h.pollDue_afterMisses hk ((pollParamsAt s.cfg s.fsm).expected :: r)).run_hit rfl
  rw [waitLevels, Nat.add_sub_cancel, ← afterPolls_afterPolls s _ _ ((pollParamsAt s.cfg s.fsm).expected :: r) r]
  exact run_trans hrun hhit

end Sys2Proof.Machine
end

section
/-! SUPPORT. Runs of a read: the start pulse and the acknowledgments (R79 to R89), a bit and the stream of 40 (R90 to R97), the
release and the two endings (R98 to R103). -/

namespace Sys2Proof.Machine

/-! ### R89: the handshake -/

/-- The requests of the start pulse (R79 to R85), latest first. -/
def startPulseEvents (p : Params) : List BusEvent :=
  [⟨setdirWord .input, none⟩, ⟨setlvlWord true, none⟩, ⟨delayWord p.pTStart, none⟩, ⟨setlvlWord false, none⟩,
    ⟨setdirWord .outputOpenDrain, none⟩, ⟨setlvlWord true, none⟩, ⟨setdirWord .outputOpenDrain, none⟩]

/-- `s` after the start pulse, at the beginning of the first wait. -/
def afterStartPulse (s : State) : State :=
  { s with
    pinDir := .input, pinOut := true, E := 0#16, smp := false, fsm := 0x08#5, tBlk := s.tBlk + s.cfg.pTStart.toNat
    trace := startPulseEvents s.cfg ++ s.trace }

/-- R79 to R85: the seven states of the start pulse, one request each. -/
theorem run_startPulse {s : State} (hf : s.fsm = 0x01#5) (hi : s.inputs = []) (he : s.err ≠ .invalidArgument) :
    core.run 7 s = .next (afterStartPulse s) := by
  refine run_fsm hf hi he rfl ?_
  iterate 5 refine run_fsm rfl (by simp [hi]) (by simp [he]) rfl ?_
  refine run_fsm rfl (by simp [hi]) (by simp [he]) rfl (congrArg Host.Outcome.next ?_)
  apply State.ext <;> simp [afterStartPulse, startPulseEvents]

/-- R75, R76: a wait that succeeds, by the level and budget of its state. -/
theorem WaitBegins.run_wait {s : State} {c : BitVec 5} {e : Level} {B : BitVec 16} {k : Nat} {r : List Level} (h : WaitBegins s)
    (hc : s.fsm = c) (hq : pollParamsAt s.cfg c = ⟨e, B⟩) (h1 : 1 ≤ k) (hk : k ≤ pollCount s.cfg B)
    (ha : s.answers = waitLevels e k ++ r) {t : State}
    (ht : afterWait { afterPolls s (waitLevels e k) r with smp := true, E := BitVec.ofNat 16 ((k - 1) * s.cfg.pG.toNat) } = t) :
    core.run (2 * k) s = .next t := by
  subst hc ht
  obtain ⟨rfl, rfl⟩ : e = (pollParamsAt s.cfg s.fsm).expected ∧ B = (pollParamsAt s.cfg s.fsm).budget := by simp [hq]
  exact h.run_success h1 hk ha

/-- A poll state entered after the polls of another. -/
theorem WaitBegins.enterPoll {s : State} (h : WaitBegins s) (l r : List Level) {c : BitVec 5} (hc : isPoll c = true) :
    WaitBegins ((afterPolls s l r).enterPoll c) :=
  ⟨h.legal, hc, h.errNeverInvalid, h.quiet, rfl, rfl, h.index⟩

/-- R86 to R89: the three acknowledgments. -/
theorem WaitBegins.run_acks {s : State} {kB kC kD : Nat} {r : List Level} (h : WaitBegins s) (hf : s.fsm = 0x08#5)
    (hk : ackPolls s.cfg kB kC kD) (ha : s.answers = ackLevels kB kC kD ++ r) :
    core.run (2 * (kB + kC + kD)) s = .next ((afterPolls s (ackLevels kB kC kD) r).enterPoll 0x0B#5) := by
  obtain ⟨hB1, hB, hC1, hC, hD1, hD⟩ := hk
  have hb := h.run_wait (r := waitLevels true kC ++ (waitLevels false kD ++ r)) hf rfl hB1 hB (by simp [ha, ackLevels])
    (afterWait_b _ hf)
  have hwC := h.enterPoll (waitLevels false kB) (waitLevels true kC ++ (waitLevels false kD ++ r)) (c := 0x09#5) rfl
  have hc := hwC.run_wait (r := waitLevels false kD ++ r) rfl rfl hC1 hC rfl (afterWait_c _ rfl)
  have hwD := hwC.enterPoll (waitLevels true kC) (waitLevels false kD ++ r) (c := 0x0A#5) rfl
  have hd := hwD.run_wait (r := r) rfl rfl hD1 hD rfl (afterWait_d _ rfl)
  rw [Nat.mul_add, Nat.mul_add, ackLevels, ← List.append_assoc, ← afterPolls_afterPolls s _ _ (waitLevels false kD ++ r),
    ← afterPolls_afterPolls s _ _ (waitLevels true kC ++ (waitLevels false kD ++ r))]
  exact run_trans (run_trans hb hc) hd

/-- `s` after the start pulse and the three acknowledgments, at the beginning of the first bit. -/
def afterHandshake (s : State) (kB kC kD : Nat) (r : List Level) : State :=
  (afterPolls (afterStartPulse s) (ackLevels kB kC kD) r).enterPoll 0x0B#5

/-- R89: the handshake. -/
theorem run_handshake {s : State} {kB kC kD : Nat} {r : List Level} (hf : s.fsm = 0x01#5) (hl : s.cfg.legal = true)
    (he : s.err ≠ .invalidArgument) (hi : s.inputs = []) (hx : s.i.toNat ≤ 39) (hk : ackPolls s.cfg kB kC kD)
    (ha : s.answers = ackLevels kB kC kD ++ r) :
    core.run (7 + 2 * (kB + kC + kD)) s = .next (afterHandshake s kB kC kD r) :=
  have hw : WaitBegins (afterStartPulse s) := ⟨hl, rfl, he, hi, rfl, rfl, hx⟩
  run_trans (run_startPulse hf hi he) (hw.run_acks rfl hk ha)

theorem ackLevels_length {p : Params} {kB kC kD : Nat} (h : ackPolls p kB kC kD) :
    (ackLevels kB kC kD).length = kB + kC + kD := by
  obtain ⟨hB, _, hC, _, hD, _⟩ := h
  simp [ackLevels, hB, hC, hD, Nat.add_assoc]

theorem afterHandshake_tBlk {s : State} {kB kC kD : Nat} (h : ackPolls s.cfg kB kC kD) (r : List Level) :
    (afterHandshake s kB kC kD r).tBlk = s.tBlk + s.cfg.pTStart.toNat + s.cfg.pG.toNat * (kB + kC + kD) := by
  simp [afterHandshake, afterPolls, afterStartPulse, ackLevels_length h, Nat.mul_comm]

theorem afterHandshake_trace_length {s : State} {kB kC kD : Nat} (h : ackPolls s.cfg kB kC kD) (r : List Level) :
    (afterHandshake s kB kC kD r).trace.length = s.trace.length + 7 + 2 * (kB + kC + kD) := by
  simp [afterHandshake, afterPolls, afterStartPulse, startPulseEvents, ackLevels_length h]
  omega

/-! ### R93, R94: a bit -/

/-- `s` after the bit `BIT kl, kh`. -/
def afterBitPolls (s : State) (kl kh : Nat) (r : List Level) : State :=
  { afterPolls s (bitLevels kl kh) r with
    lowDur := BitVec.ofNat 16 ((kl - 1) * s.cfg.pG.toNat), highDur := BitVec.ofNat 16 ((kh - 1) * s.cfg.pG.toNat)
    frame := storeBit s.frame s.i.toNat (decide (kl < kh)), i := s.i + 1#6, E := 0#16, smp := false
    fsm := if s.i + 1#6 = 40#6 then 0x0D#5 else 0x0B#5 }

/-- R92, R93: the bit is decided by the poll numbers. -/
theorem decideBit_polls {p : Params} (hl : p.legal = true) {kl kh : Nat} (h : bitPolls p kl kh) :
    decideBit (BitVec.ofNat 16 ((kl - 1) * p.pG.toNat)) (BitVec.ofNat 16 ((kh - 1) * p.pG.toNat)) = decide (kl < kh) := by
  obtain ⟨hl1, hlB, hh1, hhB⟩ := h
  have hg := Params.one_le_pG hl
  refine decide_eq_decide.mpr ?_
  rw [BitVec.lt_def, elapsed_toNat hg (B := p.pBLow) (by omega), elapsed_toNat hg (B := p.pBHigh) (by omega),
    Nat.mul_lt_mul_right hg]
  omega

/-- R90 to R94: the two waits of a bit. -/
theorem WaitBegins.run_bit {s : State} {kl kh : Nat} {r : List Level} (h : WaitBegins s) (hf : s.fsm = 0x0B#5)
    (hk : bitPolls s.cfg kl kh) (ha : s.answers = bitLevels kl kh ++ r) :
    core.run (2 * (kl + kh)) s = .next (afterBitPolls s kl kh r) := by
  have ⟨hl1, hlB, hh1, hhB⟩ := hk
  have hlow := h.run_wait (r := waitLevels false kh ++ r) hf rfl hl1 hlB (by simp [ha, bitLevels]) (afterWait_low _ hf)
  have hw : WaitBegins (State.enterPoll
      { afterPolls s (waitLevels true kl) (waitLevels false kh ++ r) with
        lowDur := BitVec.ofNat 16 ((kl - 1) * s.cfg.pG.toNat) } 0x0C#5) :=
    ⟨h.legal, rfl, h.errNeverInvalid, h.quiet, rfl, rfl, h.index⟩
  have hhigh := hw.run_wait (r := r) rfl rfl hh1 hhB rfl (afterWait_high _ rfl)
  rw [Nat.mul_add, afterBitPolls, bitLevels, ← decideBit_polls h.legal hk, ← afterPolls_afterPolls s _ _ (waitLevels false kh ++ r)]
  exact run_trans hlow hhigh

/-! ### R94, R97: the stream -/

/-- Frame space with the bits of the stream stored from index `i` on. -/
def storeStream (m : Memory) (i : Nat) : List (Nat × Nat) → Memory
  | [] => m
  | k :: ks => storeStream (storeBit m i (decide (k.1 < k.2))) (i + 1) ks

theorem storeBit_wf {m : Memory} (hm : m.wf = true) {i : Nat} (hi : i < 40) (bit : Bool) : (storeBit m i bit).wf = true :=
  Memory.wf_write _ _ _ (by omega) hm

/-- R94: the stream leaves the bits below its first index alone. -/
theorem streamBit_storeStream_below {m : Memory} {i j : Nat} {ks : List (Nat × Nat)} (hm : m.wf = true) (hi : i + ks.length ≤ 40)
    (hj : j < i) : streamBit (storeStream m i ks) j = streamBit m j := by
  induction ks generalizing m i with
  | nil => rfl
  | cons k ks ih =>
    rw [List.length_cons] at hi
    rw [storeStream, ih (storeBit_wf hm (by omega) _) (by omega) (by omega), streamBit_storeBit m hm, if_neg (by omega)]

/-- R94, R97: the bits are stored in the order of reception. -/
theorem streamBit_storeStream {m : Memory} {i j : Nat} {ks : List (Nat × Nat)} (hm : m.wf = true) (hi : i + ks.length ≤ 40)
    (hj : j < ks.length) : streamBit (storeStream m i ks) (i + j) = decide (ks[j].1 < ks[j].2) := by
  induction ks generalizing m i j with
  | nil => simp at hj
  | cons k ks ih =>
    rw [List.length_cons] at hi
    have hb := storeBit_wf hm (i := i) (by omega) (decide (k.1 < k.2))
    cases j with
    | zero =>
      rw [storeStream, streamBit_storeStream_below hb (by omega) (by omega), streamBit_storeBit m hm, if_pos (by omega)]
      rfl
    | succ j =>
      rw [storeStream, show i + (j + 1) = i + 1 + j by omega]
      exact ih hb (by omega) (by simpa using hj)

@[simp] theorem streamLevels_nil : streamLevels [] = [] := rfl

@[simp] theorem streamLevels_cons (k : Nat × Nat) (ks : List (Nat × Nat)) :
    streamLevels (k :: ks) = bitLevels k.1 k.2 ++ streamLevels ks := rfl

@[simp] theorem streamPolls_cons (k : Nat × Nat) (ks : List (Nat × Nat)) : streamPolls (k :: ks) = k.1 + k.2 + streamPolls ks := rfl

theorem streamLevels_length {p : Params} {ks : List (Nat × Nat)} (h : ∀ k ∈ ks, bitPolls p k.1 k.2) :
    (streamLevels ks).length = streamPolls ks := by
  induction ks with
  | nil => rfl
  | cons k ks ih =>
    obtain ⟨hl, _, hh, _⟩ := h k List.mem_cons_self
    simp [bitLevels, hl, hh, Nat.add_assoc, ih fun k hk => h k (List.mem_cons_of_mem _ hk)]

/-- `s` after the bits `ks`, the last ones of the loop; `low` and `high` are the durations of the last bit. -/
def afterStream (s : State) (ks : List (Nat × Nat)) (low high : BitVec 16) (r : List Level) : State :=
  { afterPolls s (streamLevels ks) r with
    lowDur := low, highDur := high, frame := storeStream s.frame s.i.toNat ks, i := 40#6, E := 0#16, smp := false
    fsm := 0x0D#5 }

theorem afterStream_tBlk {s : State} {ks : List (Nat × Nat)} (h : ∀ k ∈ ks, bitPolls s.cfg k.1 k.2) (low high : BitVec 16)
    (r : List Level) : (afterStream s ks low high r).tBlk = s.tBlk + s.cfg.pG.toNat * streamPolls ks := by
  simp [afterStream, afterPolls, streamLevels_length h, Nat.mul_comm]

theorem afterStream_trace_length {s : State} {ks : List (Nat × Nat)} (h : ∀ k ∈ ks, bitPolls s.cfg k.1 k.2) (low high : BitVec 16)
    (r : List Level) : (afterStream s ks low high r).trace.length = s.trace.length + 2 * streamPolls ks := by
  simp [afterStream, afterPolls, streamLevels_length h, Nat.add_comm]

/-- The bit loop between two bits: BIT_LOW just entered, or the loop just left. -/
structure BetweenBits (s : State) : Prop where
  legal : s.cfg.legal = true
  errNeverInvalid : s.err ≠ .invalidArgument
  quiet : s.inputs = []
  smp : s.smp = false
  elapsed : s.E = 0#16
  fsm : s.fsm = if s.i = 40#6 then 0x0D#5 else 0x0B#5

/-- R94, R97: the bit loop receives its bits one after the other. -/
theorem BetweenBits.run_stream {s : State} {ks : List (Nat × Nat)} {r : List Level} (h : BetweenBits s)
    (hn : s.i.toNat + ks.length = 40) (hk : ∀ k ∈ ks, bitPolls s.cfg k.1 k.2) (ha : s.answers = streamLevels ks ++ r) :
    ∃ low high, core.run (2 * streamPolls ks) s = .next (afterStream s ks low high r) := by
  induction ks generalizing s with
  | nil =>
    have hi : s.i = 40#6 := BitVec.eq_of_toNat_eq hn
    have hf : s.fsm = 0x0D#5 := h.fsm.trans (if_pos hi)
    refine ⟨s.lowDur, s.highDur, congrArg Host.Outcome.next ?_⟩
    rw [afterStream, streamLevels_nil, afterPolls_nil (r := r) ha, storeStream, ← hi, ← hf, ← h.elapsed, ← h.smp]
  | cons k ks ih =>
    rw [List.length_cons] at hn
    have hi : s.i ≠ 40#6 := fun e => by simp [e] at hn
    have hf : s.fsm = 0x0B#5 := h.fsm.trans (if_neg hi)
    have hw : WaitBegins s := ⟨h.legal, by simp [hf, isPoll], h.errNeverInvalid, h.quiet, h.smp, h.elapsed, by omega⟩
    have hsucc := index_succ_toNat hw.index
    have hbit := hw.run_bit (r := streamLevels ks ++ r) hf (hk k List.mem_cons_self) (by simp [ha, streamLevels])
    have hnext : BetweenBits (afterBitPolls s k.1 k.2 (streamLevels ks ++ r)) :=
      ⟨h.legal, h.errNeverInvalid, h.quiet, rfl, rfl, rfl⟩
    obtain ⟨low, high, hrest⟩ := ih hnext (by show (s.i + 1#6).toNat + _ = _; omega)
      (fun k hm => hk k (List.mem_cons_of_mem _ hm)) rfl
    refine ⟨low, high, ?_⟩
    rw [streamPolls_cons, Nat.mul_add, afterStream, streamLevels_cons, storeStream, ← hsucc,
      ← afterPolls_afterPolls s _ _ (streamLevels ks ++ r)]
    exact run_trans hbit hrest

/-! ### R98 to R103: the release and the two endings -/

/-- R99: after REL_LVL a read without an error is validated. -/
theorem exec_relLvl_of_ok {s : State} (he : s.err = .ok) : exec .relLvl s = .next ((s.busSetLevel true).goto 0x0F#5) := by
  rw [exec, execRelLvl, guardErr_of_ne _ _ (by simp [he]), if_pos (by simpa using he)]

/-- R98, R99: the line is released. -/
theorem run_release {s : State} (hf : s.fsm = 0x0D#5) (hi : s.inputs = []) (he : s.err = .ok) :
    core.run 2 s = .next ((((s.busSetDir .outputOpenDrain).goto 0x0E#5).busSetLevel true).goto 0x0F#5) :=
  run_fsm hf hi (by simp [he]) rfl
    (run_one (step_of_fsm (c := 0x0E#5) rfl (by simp [hi]) (by simp [he]) (exec_relLvl_of_ok (by simp [he]))))

/-- R100 to R103: a frame with its checksum is decoded, and the read ends in `Ok`. -/
theorem run_validate_of_checksum {s : State} (hf : s.fsm = 0x0F#5) (hi : s.inputs = []) (he : s.err = .ok)
    (hc : checksumHolds s.frame) :
    core.run 2 s = .next
      (State.finish
        { s with
          temp := decodeField s.variant (s.frame.read 2) (s.frame.read 3)
          hum := decodeField s.variant (s.frame.read 0) (s.frame.read 1) }) :=
  run_fsm (t := s.goto 0x10#5) hf hi (by simp [he]) (congrArg _ (if_pos ((checksum_eq_iff s.frame).mpr hc)))
    (run_one (step_of_fsm (c := 0x10#5) rfl (by simp [hi]) (by simp [he]) rfl))

/-- R101: a frame without its checksum ends the read in CHECKSUM_MISMATCH. -/
theorem run_validate_of_mismatch {s : State} (hf : s.fsm = 0x0F#5) (hi : s.inputs = []) (he : s.err = .ok)
    (hc : ¬checksumHolds s.frame) : core.run 1 s = .next (State.finish { s with err := .checksumMismatch }) :=
  run_one (step_of_fsm hf hi (by simp [he]) (congrArg _ (if_neg (mt (checksum_eq_iff s.frame).mp hc))))

/-! ### R62 to R99: a read up to VALIDATE -/

/-- What a read of variant `v` with the bits `ks` has received and done when it comes to VALIDATE, `polls` polls after its start
pulse. -/
structure ReceivedRead (p : Params) (v : Variant) (ks : List (Nat × Nat)) (polls : Nat) (rest : List Level) (t : State) : Prop where
  fsm : t.fsm = 0x0F#5
  err : t.err = .ok
  quiet : t.inputs = []
  variant : t.variant = v
  temp : t.temp = 0#16
  hum : t.hum = 0#16
  pinDir : t.pinDir = .outputOpenDrain
  pinOut : t.pinOut = true
  answers : t.answers = rest
  bits : ∀ j, (hj : j < ks.length) → streamBit t.frame j = decide (ks[j].1 < ks[j].2)
  time : t.tBlk = p.pTStart.toNat + p.pG.toNat * polls
  requests : t.trace.length = 9 + 2 * polls

/-- R89, R97: the handshake, the stream and the release, from an accepted READ. -/
theorem run_to_validate {s : State} {v : Variant} {kB kC kD : Nat} {ks : List (Nat × Nat)} {rest : List Level}
    (hl : s.cfg.legal = true) (hi : s.inputs = []) (hacks : ackPolls s.cfg kB kC kD) (hlen : ks.length = 40)
    (hbits : ∀ k ∈ ks, bitPolls s.cfg k.1 k.2) (ha : s.answers = ackLevels kB kC kD ++ (streamLevels ks ++ rest)) :
    ∃ t, core.run (9 + 2 * (kB + kC + kD + streamPolls ks)) (s.acceptRead v) = .next t ∧
      ReceivedRead s.cfg v ks (kB + kC + kD + streamPolls ks) rest t := by
  have hshake := run_handshake (s := s.acceptRead v) rfl hl (by simp) hi (by simp) hacks ha
  have hloop : BetweenBits (afterHandshake (s.acceptRead v) kB kC kD (streamLevels ks ++ rest)) :=
    ⟨hl, by simp [afterHandshake, afterPolls, afterStartPulse], hi, rfl, rfl, rfl⟩
  obtain ⟨low, high, hstream⟩ := hloop.run_stream (r := rest) (by rw [hlen]; rfl) hbits rfl
  have hrelease := run_release
    (s := afterStream (afterHandshake (s.acceptRead v) kB kC kD (streamLevels ks ++ rest)) ks low high rest) rfl hi rfl
  have hn : 9 + 2 * (kB + kC + kD + streamPolls ks) = 7 + 2 * (kB + kC + kD) + 2 * streamPolls ks + 2 := by omega
  rw [hn]
  refine ⟨_, run_trans (run_trans hshake hstream) hrelease, ?_⟩
  exact
    { fsm := rfl, err := rfl, quiet := hi, variant := rfl, temp := rfl, hum := rfl, pinDir := rfl, pinOut := rfl, answers := rfl
      bits := fun j hj =>
        (congrArg (streamBit _) (Nat.zero_add j).symm).trans (streamBit_storeStream (m := []) (i := 0) rfl (by omega) hj)
      time := by
        simp only [State.goto_tBlk, State.busSetLevel_tBlk, State.busSetDir_tBlk]
        rw [afterStream_tBlk (by exact hbits), afterHandshake_tBlk (by exact hacks), Nat.mul_add s.cfg.pG.toNat, ← Nat.add_assoc,
          State.acceptRead_tBlk, Nat.zero_add]
        rfl
      requests := by
        simp only [State.goto_trace, State.busSetLevel_trace, State.busSetDir_trace, List.length_cons]
        rw [afterStream_trace_length (by exact hbits), afterHandshake_trace_length (by exact hacks), State.acceptRead_trace,
          List.length_nil]
        omega }

end Sys2Proof.Machine
end

section
/-! PROOF. The family "host command": the READ word, the words presented during a read, the result and how long it stays, a whole
read, and that a read does not depend on an earlier one. -/

namespace Sys2Proof.Machine

/-- Settles O9: the two words are evaluated, and READ is its two branches. -/
theorem readStartsOneReadFromIdle : Obligations.ReadStartsOneReadFromIdle := by
  unfold Obligations.ReadStartsOneReadFromIdle
  exact ⟨rfl, rfl, exec_read⟩

/-- Settles O11: the step uses the word up, and no CMD word has an effect outside IDLE. -/
theorem readWhileBusyIsLost : Obligations.ReadWhileBusyIsLost := by
  unfold Obligations.ReadWhileBusyIsLost
  intro s w r he hf hlegal hi
  rw [step_legal s _ he hlegal (s.nextInstr_of_inputs_cmd w r hi), exec_decodeCmd_of_fsm_ne w (by exact hf),
    State.consume_cons s _ r hi]

/-- Settles O22. -/
theorem hostReadsTheResult : Obligations.HostReadsTheResult := by
  unfold Obligations.HostReadsTheResult
  exact fun _ => ⟨State.result_of_not_done, State.result_of_ok, State.result_of_timeout, State.result_of_checksumMismatch⟩

/-- Settles O23: a finished read is in IDLE, where such a step changes `inputs` alone. -/
theorem resultIsStableUntilTheNextRead : Obligations.ResultIsStableUntilTheNextRead := by
  unfold Obligations.ResultIsStableUntilTheNextRead
  intro s t hs hd ht hn hr
  obtain ⟨hf, hb⟩ := hs.idle_of_done hd
  obtain rfl := step_idle ht hf hn hr
  exact ⟨hd, hb, rfl, rfl, rfl, rfl, rfl, rfl, s.consume_result⟩

/-- Settles O48: the READ takes both blocks to the same state. -/
theorem readsAreIndependent : Obligations.ReadsAreIndependent := by
  unfold Obligations.ReadsAreIndependent
  intro s u w r v n hw hsf huf hsp hup hse hue hcfg hsi hui ha hd
  obtain ⟨hsdir, hsout⟩ := hsp.released hsf
  obtain ⟨hudir, huout⟩ := hup.released huf
  have hsame : s.consume.acceptRead v = u.consume.acceptRead v :=
    State.acceptRead_congr v hcfg (hsdir.trans hudir.symm) (hsout.trans huout.symm) (by simp [hsi, hui]) ha hd
  rw [run_succ n s _ (step_of_read hsf hse hsi hw), run_succ n u _ (step_of_read huf hue hui hw), hsame]

/-- Settles O46: the READ's step, the run to VALIDATE, and one of the two endings. -/
theorem completeReadPublishesItsFrame : Obligations.CompleteReadPublishesItsFrame := by
  unfold Obligations.CompleteReadPublishesItsFrame
  intro s v kB kC kD ks rest hf hl he hi hacks hlen hbits ha
  obtain ⟨t, hrun, hread⟩ := run_to_validate (s := s.consume) (v := v) hl (by simp [hi]) hacks hlen hbits ha
  have hstart := run_trans (run_one (step_of_read hf he hi (decodeCmd_read v))) hrun
  by_cases hc : checksumHolds t.frame
  · have hend := run_trans hstart (run_validate_of_checksum hread.fsm hread.quiet hread.err hc)
    refine ⟨_, _, hend, rfl, rfl, rfl, hread.pinDir, hread.pinOut, hread.answers, hread.variant, hread.bits, hread.time,
      hread.requests, fun _ => ⟨by omega, hread.err, ?_, ?_⟩, fun hn => absurd hc hn⟩ <;> simp [hread.variant]
  · have hend := run_trans hstart (run_validate_of_mismatch hread.fsm hread.quiet hread.err hc)
    exact ⟨_, _, hend, rfl, rfl, rfl, hread.pinDir, hread.pinOut, hread.answers, hread.variant, hread.bits, hread.time,
      hread.requests, fun h => absurd h hc, fun _ => ⟨by omega, rfl, hread.temp, hread.hum⟩⟩

end Sys2Proof.Machine
end

section
/-! SUPPORT. The words of the bus requests as numbers (R53, R54), the poll in R73's own words, a received bit, and a wait that times
out (R75). -/

namespace Sys2Proof.Machine

/-- R54: the word of `DELAY n` is the code of DELAY with `n` added. -/
theorem delayWord_eq_add (n : BitVec 32) : delayWord n = 0x300000000#34 + n.zeroExtend 34 := by
  apply BitVec.eq_of_toNat_eq
  rw [delayWord_toNat, BitVec.toNat_add, BitVec.toNat_setWidth]
  simp only [BitVec.toNat_ofNat]
  omega

/-- R72, R73: the request of a poll's delay. -/
theorem delayWord_pG (g : BitVec 16) : delayWord (g.zeroExtend 32) = 0x300000000#34 + g.zeroExtend 34 := by
  rw [delayWord_eq_add]
  exact congrArg (0x300000000#34 + ·) (BitVec.setWidth_setWidth (by decide))

/-! ### R73: the model's poll and the spec's -/

/-- R73: each of the poll's moves ends where the rule, in its own words, says. -/
theorem PollMove.eq_pollByRule {q : PollParams} {k : State → State} {u t : State} (m : PollMove q k u t) :
    t = pollByRule q.expected q.budget k u := by
  unfold pollByRule
  cases m with
  | timeout hs hB => exact ((if_pos hs).trans (if_pos hB)).symm
  | delay hs hB =>
    rw [if_pos hs, if_neg (Nat.not_le_of_lt hB), ← delayWord_pG]
    ext1 <;> simp
    omega
  | miss hs hl => exact ((if_neg (by simp [hs])).trans (if_neg hl)).symm
  | hit hs hl => exact ((if_neg (by simp [hs])).trans (if_pos hl)).symm

/-- R73: a poll whose continuation answers on its sample is the rule's step. -/
theorem poll_eq_pollByRule (q : PollParams) (r : State → Result) {k : State → State} {s : State}
    (hk : r s.busGetLevel = .next (k s.busGetLevel)) : poll q r s = .next (pollByRule q.expected q.budget k s) := by
  rcases poll_cases q r s with ⟨hs, hB, e⟩ | ⟨hs, hB, e⟩ | ⟨hs, hl, e⟩ | ⟨hs, hl, e⟩
  · rw [e, (PollMove.timeout hs hB : PollMove q k s _).eq_pollByRule]
  · rw [e, (PollMove.delay hs hB : PollMove q k s _).eq_pollByRule]
  · rw [e, (PollMove.miss hs hl : PollMove q k s _).eq_pollByRule]
  · rw [e, hk, (PollMove.hit hs hl : PollMove q k s _).eq_pollByRule]

/-- R73: a sample that matches runs the continuation. -/
theorem poll_of_hit (q : PollParams) (r : State → Result) {s : State} (hs : s.smp = true) (hl : s.lineLevel = q.expected) :
    poll q r s = r s.busGetLevel := by
  simp [poll, hs, hl]

/-! ### R91: a received bit -/

/-- R91: the index reaches 40 from 39 only. -/
theorem index_succ_eq_40_iff (i : BitVec 6) : i + 1#6 = 40#6 ↔ i.toNat = 39 := by
  rw [← BitVec.toNat_inj, BitVec.toNat_add]
  simp only [BitVec.toNat_ofNat]
  omega

/-- R91: with `i` at most 39 the bit is stored. -/
theorem bitReceived_of_le {t : State} (hi : t.i.toNat ≤ 39) : bitReceived t = .next (afterBit t) := by
  rcases bitReceived_cases t with ⟨_, e⟩ | ⟨h, _⟩
  · exact e
  · omega

/-- R36, R91: with `i` above 39 the byte of the bit does not exist. -/
theorem bitReceived_of_ge {t : State} (hi : 40 ≤ t.i.toNat) : bitReceived t = .fault (.frameAddress (t.i.toNat / 8)) := by
  rcases bitReceived_cases t with ⟨h, _⟩ | ⟨_, e⟩
  · omega
  · exact e

/-! ### R75: the timeout -/

/-- R75: the polls of a wait use up its budget. -/
theorem budget_le_waitTime {p : Params} (hg : 1 ≤ p.pG.toNat) (B : BitVec 16) : B.toNat ≤ waitTime p B := by
  have := Nat.lt_div_mul_add (a := B.toNat + p.pG.toNat - 1) hg
  unfold waitTime pollCount
  omega

/-- R24, R75: the elapsed time of a wait that timed out does not wrap. -/
theorem waitTime_lt {p : Params} (hl : p.legal = true) (c : BitVec 5) : waitTime p (pollParamsAt p c).budget < 2 ^ 16 := by
  have := Params.budget_add_pG_le hl c
  have := Nat.div_mul_le_self ((pollParamsAt p c).budget.toNat + p.pG.toNat - 1) p.pG.toNat
  unfold waitTime pollCount
  omega

/-- R73, R112: a poll that would begin with the budget used up times out, and issues no request. -/
theorem step_timeout {s : State} (hp : isPoll s.fsm = true) (he : s.err ≠ .invalidArgument) (hi : s.inputs = [])
    (hx : s.i.toNat ≤ 39) (hs : s.smp = false) (hB : (pollParamsAt s.cfg s.fsm).budget ≤ s.E) :
    step s = .next { s with err := .timeout, fsm := 0x0D#5 } := by
  obtain ⟨t, ht, m⟩ := step_poll hp he hi hx
  cases m with
  | timeout => exact ht
  | delay _ hE => exact absurd hE (BitVec.not_lt.mpr hB)
  | miss h | hit h => simp [hs] at h

/-- R75: after K(B) misses the budget is used up. -/
theorem WaitBegins.budget_le_elapsed {s : State} (h : WaitBegins s) (r : List Level) :
    (pollParamsAt s.cfg s.fsm).budget ≤ (afterMisses s (pollCount s.cfg (pollParamsAt s.cfg s.fsm).budget) r).E := by
  show _ ≤ (BitVec.ofNat 16 (waitTime _ _)).toNat
  rw [BitVec.toNat_ofNat, Nat.mod_eq_of_lt (waitTime_lt h.legal _)]
  exact budget_le_waitTime (Params.one_le_pG h.legal) _

/-- R75, R112: a wait that times out, after its K(B) misses. -/
theorem WaitBegins.run_timeout {s : State} (h : WaitBegins s) {r : List Level}
    (ha : s.answers =
      List.replicate (pollCount s.cfg (pollParamsAt s.cfg s.fsm).budget) (!(pollParamsAt s.cfg s.fsm).expected) ++ r) :
    core.run (2 * pollCount s.cfg (pollParamsAt s.cfg s.fsm).budget + 1) s =
      .next { afterMisses s (pollCount s.cfg (pollParamsAt s.cfg s.fsm).budget) r with err := .timeout, fsm := 0x0D#5 } :=
  run_trans (h.run_misses le_rfl ha)
    (run_one (step_timeout h.poll h.errNeverInvalid h.quiet h.index h.smp (h.budget_le_elapsed r)))

end Sys2Proof.Machine
end

section
/-! PROOF. The family "bus operations": the four requests, one step of each poll state, and the two ends of a wait. -/

namespace Sys2Proof.Machine

/-- Settles O16: the frame is the one `storeBit` leaves; a bit without a place stops by its byte. -/
theorem bitHighStoresTheBit : Obligations.BitHighStoresTheBit := by
  unfold Obligations.BitHighStoresTheBit
  refine ⟨fun s hi hwf => ?_, fun s hi hs hl => ?_⟩
  · refine ⟨storeBit s.frame s.i.toNat (decide (s.lowDur.toNat < s.E.toNat)), storeBit_wf hwf (by omega) _,
      streamBit_storeBit s.frame hwf _ _, fun b hb => read_storeBit_other _ _ b _ hb,
      poll_eq_pollByRule (bitHighParams s.cfg) bitReceived ?_⟩
    simp only [bitReceived_of_le (t := s.busGetLevel) hi, afterBit, index_succ_eq_40_iff]
    rfl
  · exact (poll_of_hit (bitHighParams s.cfg) bitReceived hs hl).trans (bitReceived_of_ge hi)

/-- Settles O40: k - 1 misses, then the poll that hits. -/
theorem waitSucceedsAtItsPoll : Obligations.WaitSucceedsAtItsPoll := by
  unfold Obligations.WaitSucceedsAtItsPoll
  exact fun _ _ _ h h1 hk ha => h.run_success h1 hk ha

/-- Settles O41: K(B) misses, then the poll that finds the budget used up. -/
theorem waitTimesOut : Obligations.WaitTimesOut := by
  unfold Obligations.WaitTimesOut
  exact fun _ _ h ha => h.run_timeout ha

/-- Settles O12: the words of the first five are evaluated, that of DELAY is its code with `n` added. -/
theorem busRequestsDoOnlyTheirEffect : Obligations.BusRequestsDoOnlyTheirEffect := by
  unfold Obligations.BusRequestsDoOnlyTheirEffect
  refine fun s => ⟨rfl, rfl, rfl, rfl, rfl, fun n => ?_⟩
  rw [← delayWord_eq_add]
  rfl

/-- Settles O14: each of the three is the rule's poll with its state's level and budget, and its success enters the next wait. -/
theorem acknowledgmentPolls : Obligations.AcknowledgmentPolls := by
  unfold Obligations.AcknowledgmentPolls
  refine fun s => ⟨?_, ?_, ?_⟩
  · exact poll_eq_pollByRule (bPollParams s.cfg) (fun t => .next (t.enterPoll 0x09#5)) rfl
  · exact poll_eq_pollByRule (cPollParams s.cfg) (fun t => .next (t.enterPoll 0x0A#5)) rfl
  · exact poll_eq_pollByRule (dPollParams s.cfg) (fun t => .next (t.enterPoll 0x0B#5)) rfl

/-- Settles O15: the sample leaves `E` alone, so the duration of the low phase is the elapsed time of the state before it. -/
theorem bitLowMeasuresTheLowPhase : Obligations.BitLowMeasuresTheLowPhase := by
  unfold Obligations.BitLowMeasuresTheLowPhase
  exact fun s => poll_eq_pollByRule (bitLowParams s.cfg) (fun t => .next (State.enterPoll { t with lowDur := t.E } 0x0C#5)) rfl

end Sys2Proof.Machine
end

section
/-! SUPPORT. The handshake as its rules write it: the rest in IDLE (R78), and the start pulse's requests as words (R53, R89). -/

namespace Sys2Proof.Machine

/-- R78: with nothing from the outside, the step of IDLE changes nothing. -/
theorem step_idle_of_quiet {s : State} (hf : s.fsm = 0x00#5) (hi : s.inputs = []) (he : s.err ≠ .invalidArgument) :
    step s = .next s :=
  step_of_fsm hf hi he (congrArg Host.Outcome.next (s.goto_self _ hf))

/-- R79 to R85: the requests of the start pulse by their words, latest first. -/
theorem startPulseEvents_eq_words (p : Params) :
    startPulseEvents p =
      [⟨0x000000000#34, none⟩, ⟨0x100000001#34, none⟩, ⟨0x300000000#34 + p.pTStart.zeroExtend 34, none⟩,
        ⟨0x100000000#34, none⟩, ⟨0x000000001#34, none⟩, ⟨0x100000001#34, none⟩, ⟨0x000000001#34, none⟩] := by
  rw [← delayWord_eq_add]
  rfl

end Sys2Proof.Machine
end

section
/-! PROOF. The family "handshake": the rest in IDLE, the states of the start pulse, and the trace and time of the whole handshake. -/

namespace Sys2Proof.Machine

/-- Settles O43: the run of the handshake, with its time in polls and its requests in words. -/
theorem handshakeTrace : Obligations.HandshakeTrace := by
  unfold Obligations.HandshakeTrace
  intro s kB kC kD rest hf hl he hi hx hk ha
  rw [run_handshake hf hl he hi hx hk ha, ← afterHandshake_tBlk hk rest, ← startPulseEvents_eq_words, ← ackLevels_length hk,
    List.append_assoc]
  rfl

/-- Settles O24: one step answers the same state, so every run does. -/
theorem idleWaitsForever : Obligations.IdleWaitsForever := by
  unfold Obligations.IdleWaitsForever
  intro s n hf hi he
  induction n with
  | zero => rfl
  | succ n ih => rw [run_succ n s s (step_idle_of_quiet hf hi he), ih]

/-- Settles O13: seven of the eight are evaluated; A_WAIT's word is the code of DELAY with `P_T_START` added. -/
theorem startPulseStates : Obligations.StartPulseStates := by
  unfold Obligations.StartPulseStates
  refine fun s => ⟨rfl, rfl, rfl, rfl, rfl, ?_, rfl, rfl⟩
  rw [← delayWord_eq_add]
  rfl

end Sys2Proof.Machine
end

section
/-! SUPPORT. A received bit and the received stream: their polls and durations as numbers, and the frame they leave. -/

namespace Sys2Proof.Machine

/-! ### R76, R93: a bit -/

theorem bitLevels_length {p : Params} {kl kh : Nat} (h : bitPolls p kl kh) : (bitLevels kl kh).length = kl + kh := by
  obtain ⟨hl, _, hh, _⟩ := h
  simp [bitLevels, hl, hh]

theorem afterBitPolls_tBlk {s : State} {kl kh : Nat} (h : bitPolls s.cfg kl kh) (r : List Level) :
    (afterBitPolls s kl kh r).tBlk = s.tBlk + s.cfg.pG.toNat * (kl + kh) := by
  simp [afterBitPolls, afterPolls, bitLevels_length h, Nat.mul_comm]

/-- R76: the duration of the low phase does not wrap. -/
theorem afterBitPolls_lowDur {s : State} {kl kh : Nat} (hl : s.cfg.legal = true) (h : bitPolls s.cfg kl kh) (r : List Level) :
    (afterBitPolls s kl kh r).lowDur.toNat = (kl - 1) * s.cfg.pG.toNat := by
  obtain ⟨h1, hB, _, _⟩ := h
  exact elapsed_toNat (B := s.cfg.pBLow) (Params.one_le_pG hl) (by omega)

/-- R76: the duration of the high phase does not wrap. -/
theorem afterBitPolls_highDur {s : State} {kl kh : Nat} (hl : s.cfg.legal = true) (h : bitPolls s.cfg kl kh) (r : List Level) :
    (afterBitPolls s kl kh r).highDur.toNat = (kh - 1) * s.cfg.pG.toNat := by
  obtain ⟨_, _, h1, hB⟩ := h
  exact elapsed_toNat (B := s.cfg.pBHigh) (Params.one_le_pG hl) (by omega)

/-- R91: the 40th bit ends the loop. -/
theorem afterBitPolls_fsm (s : State) (kl kh : Nat) (r : List Level) :
    (afterBitPolls s kl kh r).fsm = if s.i.toNat = 39 then 0x0D#5 else 0x0B#5 := by
  simp only [afterBitPolls, index_succ_eq_40_iff]

/-! ### R94, R97: the stream -/

/-- R94: the stream keeps the canonical form of frame space. -/
theorem storeStream_wf {m : Memory} {i : Nat} {ks : List (Nat × Nat)} (hm : m.wf = true) (hi : i + ks.length ≤ 40) :
    (storeStream m i ks).wf = true := by
  induction ks generalizing m i with
  | nil => exact hm
  | cons k ks ih =>
    rw [List.length_cons] at hi
    exact ih (storeBit_wf hm (by omega) _) (by omega)

/-- R94: from index 0 the stream fills frame space from its first bit on. -/
theorem afterStream_frame_of_zero {s : State} (hi : s.i = 0#6) (ks : List (Nat × Nat)) (low high : BitVec 16) (r : List Level) :
    (afterStream s ks low high r).frame = storeStream s.frame 0 ks := by
  rw [afterStream, hi]
  rfl

/-- The bit loop at the beginning of its first bit. -/
theorem WaitBegins.betweenBits {s : State} (h : WaitBegins s) (hf : s.fsm = 0x0B#5) (hi : s.i = 0#6) : BetweenBits s :=
  ⟨h.legal, h.errNeverInvalid, h.quiet, h.smp, h.elapsed, by simp [hf, hi]⟩

end Sys2Proof.Machine
end

section
/-! PROOF. The family "bit sampling": one received bit, and the stream of 40. -/

namespace Sys2Proof.Machine

/-- Settles O44: the run of the bit's two waits, its state read field by field. -/
theorem bitIsOneWhenHighPollsExceedLow : Obligations.BitIsOneWhenHighPollsExceedLow := by
  unfold Obligations.BitIsOneWhenHighPollsExceedLow
  intro s kl kh rest hf hw hwf hk ha
  have hi : s.i.toNat < 40 := Nat.lt_succ_of_le hw.index
  exact ⟨afterBitPolls s kl kh rest, hw.run_bit hf hk ha, streamBit_storeBit s.frame hwf _ _, storeBit_wf hwf hi _, rfl,
    afterBitPolls_fsm s kl kh rest, rfl, rfl, afterBitPolls_lowDur hw.legal hk rest, afterBitPolls_highDur hw.legal hk rest, rfl,
    hw.quiet, rfl, rfl, rfl, rfl, rfl, rfl, rfl, rfl, rfl, afterBitPolls_tBlk hk rest, rfl⟩

/-- Settles O45: the run of the stream from index 0, its state read field by field. -/
theorem bitLoopStoresTheStream : Obligations.BitLoopStoresTheStream := by
  unfold Obligations.BitLoopStoresTheStream
  intro s ks rest hf hw hwf hi hlen hk ha
  have hfits : 0 + ks.length ≤ 40 := by omega
  obtain ⟨low, high, hrun⟩ := (hw.betweenBits hf hi).run_stream (by rw [hi, hlen]; rfl) hk ha
  refine ⟨_, hrun, rfl, rfl, rfl, fun j hj => ?_, ?_, rfl, rfl, rfl, rfl, rfl, hw.quiet, rfl, rfl, rfl, rfl,
    afterStream_tBlk hk low high rest, rfl⟩
  · have hbit := streamBit_storeStream hwf hfits hj
    rw [Nat.zero_add] at hbit
    rwa [afterStream_frame_of_zero hi]
  · rw [afterStream_frame_of_zero hi]
    exact storeStream_wf hwf hfits

end Sys2Proof.Machine
end

section
/-! SUPPORT. What REL_LVL and VALIDATE answer on each path (R99 to R101). -/

namespace Sys2Proof.Machine

/-- R99: after REL_LVL a read with an error has ended. -/
theorem exec_relLvl_of_error {s : State} (he : s.err ≠ .ok) (hv : s.err ≠ .invalidArgument) :
    exec .relLvl s = .next (s.busSetLevel true).finish := by
  rw [exec, execRelLvl, guardErr_of_ne _ _ (by simpa using hv), if_neg (by simpa using he)]

/-- R100: a frame with its checksum goes on to DECODE. -/
theorem exec_validate_of_checksum {s : State} (hc : checksumHolds s.frame) : exec .validate s = .next (s.goto 0x10#5) := by
  rw [exec, execValidate, if_pos ((checksum_eq_iff s.frame).mpr hc)]

/-- R101: a frame without its checksum ends the read. -/
theorem exec_validate_of_mismatch {s : State} (hc : ¬checksumHolds s.frame) :
    exec .validate s = .next (s.raise .checksumMismatch) := by
  rw [exec, execValidate, if_neg (mt (checksum_eq_iff s.frame).mp hc)]

end Sys2Proof.Machine
end

section
/-! PROOF. The family "release and checksum": the two release states, and the checksum validator. -/

namespace Sys2Proof.Machine

/-- Settles O18: the relation over numbers is VALIDATE's test over bytes, and each side of it has its answer. -/
theorem validateChecksTheSum : Obligations.ValidateChecksTheSum := by
  unfold Obligations.ValidateChecksTheSum
  intro s
  constructor
  · exact fun hsum => exec_validate_of_checksum hsum.symm
  · exact fun hsum => exec_validate_of_mismatch (Ne.symm hsum)

/-- Settles O17: REL_DIR has one path; REL_LVL's is chosen by `err`, and neither error of the second is code 11. -/
theorem releaseStates : Obligations.ReleaseStates := by
  unfold Obligations.ReleaseStates
  refine fun s => ⟨rfl, fun hok => exec_relLvl_of_ok hok, ?_⟩
  rintro (he | he)
  · exact exec_relLvl_of_error (by simp [he]) (by simp [he])
  · exact exec_relLvl_of_error (by simp [he]) (by simp [he])

end Sys2Proof.Machine
end

section
/-! SUPPORT. The decoded fields as numbers of tenths, by variant (R104, R105, R107). -/

namespace Sys2Proof.Machine

@[simp] theorem decodeField_variantA (msb lsb : Byte) : decodeField .variantA msb lsb = decA msb := rfl

@[simp] theorem decodeField_variantB (msb lsb : Byte) : decodeField .variantB msb lsb = decB msb lsb := rfl

/-- R104: the product fits in 16 bits and is not negative. -/
theorem decA_toInt (msb : Byte) : (decA msb).toInt = 10 * msb.toNat := by
  have hbyte : (msb.zeroExtend 16).toNat = msb.toNat := BitVec.toNat_setWidth_of_le (by decide)
  have hval : (decA msb).toNat = 10 * msb.toNat := by
    simp only [decA, BitVec.toNat_mul, hbyte, BitVec.toNat_ofNat]
    omega
  rw [BitVec.toInt_eq_toNat_of_lt (by omega), hval]
  rfl

/-- R105: bit 7 of a byte says which half of the byte's range it lies in. -/
theorem bitSeven_eq_one_iff (b : Byte) : b.extractLsb' 7 1 = 1#1 ↔ 128 ≤ b.toNat := by
  rw [← BitVec.toNat_inj, BitVec.extractLsb'_toNat, Nat.shiftRight_eq_div_pow, BitVec.toNat_ofNat]
  omega

/-- R105: the magnitude is below 2 ^ 15, so neither it nor its negation wraps. -/
theorem decB_toInt (msb lsb : Byte) :
    (decB msb lsb).toInt =
      (if 128 ≤ msb.toNat then -1 else 1) * ((msb.toNat % 128 * 256 + lsb.toNat : Nat) : Int) := by
  have hmag := magnitude_toNat msb lsb
  have hint := BitVec.toInt_eq_toNat_of_lt (x := ((0#1 ++ msb.extractLsb' 0 7) ++ lsb : BitVec 16)) (by omega)
  simp only [decB, bitSeven_eq_one_iff]
  split
  · rw [BitVec.toInt_neg_of_ne_intMin, hint, hmag, Int.neg_one_mul]
    intro hmin
    have hval : _ = 32768 := congrArg BitVec.toNat hmin
    omega
  · rw [hint, hmag, Int.one_mul]

/-- R107: VariantB's values are within the magnitude's range on both sides of 0. -/
theorem decB_toInt_bounds (msb lsb : Byte) : -32767 ≤ (decB msb lsb).toInt ∧ (decB msb lsb).toInt ≤ 32767 := by
  rw [decB_toInt]
  split <;> omega

/-- R107: no decoded value lies below -32767. -/
theorem neg_32767_le_decodeField_toInt (v : Variant) (msb lsb : Byte) : -32767 ≤ (decodeField v msb lsb).toInt := by
  cases v with
  | variantA =>
    rw [decodeField_variantA, decA_toInt]
    omega
  | variantB => exact (decB_toInt_bounds msb lsb).1

end Sys2Proof.Machine
end

section
/-! PROOF. The family "value decoding": DECODE's two results in tenths, and their ranges. -/

namespace Sys2Proof.Machine

/-- Settles O19: DECODE writes the two decoded fields, and each variant's decoder gives its number of tenths. -/
theorem decodeGivesTheTenths : Obligations.DecodeGivesTheTenths := by
  unfold Obligations.DecodeGivesTheTenths
  refine fun s => ⟨decodeField s.variant (s.frame.read 2) (s.frame.read 3),
    decodeField s.variant (s.frame.read 0) (s.frame.read 1), rfl, fun hA => ?_, fun hB => ?_⟩
  · simp only [hA, decodeField_variantA]
    exact ⟨decA_toInt _, decA_toInt _⟩
  · simp only [hB, decodeField_variantB]
    exact ⟨decB_toInt _ _, decB_toInt _ _⟩

/-- Settles O20: the ranges follow from the numbers of tenths; both bounds are evaluated, and 0x8000 would be below the lower one. -/
theorem decodedValuesStayInRange : Obligations.DecodedValuesStayInRange := by
  unfold Obligations.DecodedValuesStayInRange
  refine ⟨fun msb _ => ⟨msb.toNat, Nat.le_of_lt_succ msb.isLt, decA_toInt msb⟩, decB_toInt_bounds, by decide, by decide, ?_⟩
  intro v msb lsb hmin
  have hlow := neg_32767_le_decodeField_toInt v msb lsb
  rw [hmin] at hlow
  exact absurd hlow (by decide)

end Sys2Proof.Machine
end

section
/-! SUPPORT. `err = 11` as a fault (R111), the release after a timeout (R98, R99, R112), and the steps of a read counted up to its
end (R113, R137). -/

namespace Sys2Proof.Machine

/-! ### R111: the invalid error code -/

theorem guardErr_of_invalid {s : State} (h : s.err = .invalidArgument) (k : Result) : guardErr s k = .fault .invalidArgument := by
  simp [guardErr, h]

/-- R111, U7: the guard of `err` comes before every operation of a step; only a reset has no operation. -/
theorem step_of_invalid {s : State} (h : s.err = .invalidArgument) (hn : s.nextInstr ≠ none) :
    step s = .fault .invalidArgument := by
  unfold step
  split
  · contradiction
  · exact guardErr_of_invalid h _

theorem exec_relLvl_of_invalid {s : State} (h : s.err = .invalidArgument) : exec .relLvl s = .fault .invalidArgument :=
  guardErr_of_invalid (s := s.busSetLevel true) h _

theorem State.result_of_invalid {s : State} (hd : s.done = true) (h : s.err = .invalidArgument) :
    s.result = .error .invalidArgument := by
  simp [State.result, hd, h]

/-! ### R98, R99, R112: the release after a timeout -/

/-- R98, R99: with an error held, the release is the read's end. -/
theorem run_release_of_timeout {s : State} (hf : s.fsm = 0x0D#5) (hi : s.inputs = []) (he : s.err = .timeout) :
    core.run 2 s = .next (((s.busSetDir .outputOpenDrain).goto 0x0E#5).busSetLevel true).finish :=
  run_fsm hf hi (by simp [he]) rfl
    (run_one (step_of_fsm (c := 0x0E#5) rfl (by simp [hi]) (by simp [he]) (exec_relLvl_of_error (by simp [he]) (by simp [he]))))

/-! ### R135, R137: the most polls of a read -/

/-- The number of polls of a read all of whose waits end at their last poll (R75, R97). -/
def mostPolls (p : Params) : Nat :=
  pollCount p p.pBAck1 + pollCount p p.pBAck2 + pollCount p p.pBAck3 + 40 * (pollCount p p.pBLow + pollCount p p.pBHigh)

theorem readSteps_eq (p : Params) : readSteps p = 11 + 2 * mostPolls p := by
  unfold readSteps mostPolls
  omega

/-- R135: the latest time of the release is that of a read with the most polls. -/
theorem latestEntry_release (p : Params) (i : Nat) : latestEntry p 0x0D#5 i = p.pTStart.toNat + p.pG.toNat * mostPolls p := by
  simp [latestEntry, mostPolls, waitTime]
  ring

/-- R98: past the waits nothing is delayed, so every state of the release has the release's latest time. -/
theorem latestEntry_past_waits (p : Params) {c : BitVec 5} (i : Nat) (h : 0x0D ≤ c.toNat) :
    latestEntry p c i = latestEntry p 0x0D#5 i := by
  simp only [latestEntry]
  split
  iterate 12 · omega
  · rfl

/-- R75, R135: from the first wait on, a read's time is that of `P_T_START` and of at most the most polls. -/
theorem TimeInv.tBlk_le {s : State} (h : TimeInv s) (hs : SamplerInv s) (hlo : 0x08 ≤ s.fsm.toNat) :
    s.tBlk ≤ s.cfg.pTStart.toNat + s.cfg.pG.toNat * mostPolls s.cfg := by
  rw [← latestEntry_release s.cfg s.i.toNat]
  by_cases hp : isPoll s.fsm = true
  · rw [timeInv_iff_of_isPoll hp] at h
    have hend := latestEntry_timeout (p := s.cfg) hp hs.indexInLoop
    have hg := Params.one_le_pG hs.cfgLegal
    have hd := hs.wholePolls hp
    have hwait : s.E.toNat + (if s.smp then s.cfg.pG.toNat else 0) ≤ waitTime s.cfg (pollParamsAt s.cfg s.fsm).budget := by
      split
      · next hsmp =>
        have hE := hs.sampleInBudget hp hsmp
        exact le_waitTime hg (Nat.dvd_add_self_right.mpr hd) (by omega)
      · exact le_waitTime hg hd (hs.elapsedBound hp)
    omega
  · rw [timeInv_iff_of_not_isPoll hp] at h
    rw [isPoll_iff] at hp
    exact h.trans_eq (latestEntry_past_waits s.cfg _ (by omega))

/-- R75: in a time of `m` polls a read issues two requests for each, besides the fixed ones. -/
theorem RequestsBalance.trace_length_le {s : State} {n f m : Nat} (h : RequestsBalance s n f) (hg : 1 ≤ s.cfg.pG.toNat)
    (hT : s.tBlk ≤ s.cfg.pTStart.toNat + s.cfg.pG.toNat * m) : s.trace.length + n ≤ f + 2 * m := by
  obtain ⟨_, hbal⟩ := h
  refine Nat.le_of_mul_le_mul_left ?_ hg
  rw [hbal, Nat.mul_add, Nat.mul_left_comm]
  omega

theorem fixedRequests_le (c : BitVec 5) : fixedRequests c ≤ 9 := by
  revert c
  decide

/-- R89, R137: a read in progress has issued at most the nine fixed requests and two for each of the most polls. -/
theorem Inv.trace_length_le {s : State} (h : Inv s) (hf : s.fsm ≠ 0x00#5) : s.trace.length ≤ 9 + 2 * mostPolls s.cfg := by
  have hnine := fixedRequests_le s.fsm
  have hpos : 1 ≤ s.fsm.toNat := Nat.one_le_iff_ne_zero.mpr fun e => hf (BitVec.eq_of_toNat_eq e)
  by_cases hw : 0x08 ≤ s.fsm.toNat
  · have hbal := h.request.balance hw h.fsm.legal
    have hlen := hbal.trace_length_le (Params.one_le_pG h.sampler.cfgLegal) (h.time.tBlk_le h.sampler hw)
    omega
  · obtain ⟨hstart, _⟩ := h.request
    have hlen := hstart hpos (by omega)
    omega

/-! ### R113, R137: a read's steps, and its end -/

/-- The steps a read in progress has taken: one for each request, and one more where a timeout or VALIDATE took a step without one
(R100, R112). -/
def stepsTaken (s : State) : Nat := s.trace.length + if s.err = .timeout ∨ s.fsm = 0x10#5 then 1 else 0

/-- R137: a read in progress has not used up its steps. -/
theorem Inv.stepsTaken_lt {s : State} (h : Inv s) (hf : s.fsm ≠ 0x00#5) : stepsTaken s < readSteps s.cfg := by
  have hlen := h.trace_length_le hf
  rw [readSteps_eq, stepsTaken]
  split <;> omega

/-- A move that issues one request and leaves `err` alone is one step more. -/
theorem stepsTaken_of_request {u t : State} (ht : t.trace.length = u.trace.length + 1) (he : t.err = u.err) (hu : u.fsm ≠ 0x10#5)
    (hf : t.fsm ≠ 0x10#5) : stepsTaken t = stepsTaken u + 1 := by
  simp only [stepsTaken, ht, he, hu, hf, or_false]
  omega

/-- A move that issues no request is one step more if it raises the timeout or enters DECODE, from a state without an error. -/
theorem stepsTaken_of_no_request {u t : State} (ht : t.trace = u.trace) (he : u.err = .ok) (hu : u.fsm ≠ 0x10#5)
    (h : t.err = .timeout ∨ t.fsm = 0x10#5) : stepsTaken t = stepsTaken u + 1 := by
  simp [stepsTaken, ht, he, hu, h]

@[simp] theorem afterWait_inputs (s : State) : (afterWait s).inputs = s.inputs := by
  unfold afterWait
  split <;> rfl

/-- R14: the FSM leaves the outside's inputs alone. -/
theorem FsmMove.inputs_eq {u t : State} (m : FsmMove u t) : t.inputs = u.inputs := by
  by_cases hp : isPoll u.fsm = true
  · cases m.pollMove hp with
    | hit => simp
    | _ => rfl
  · cases m with
    | bPoll _ c | cPoll _ c | dPoll _ c | bitLow _ c | bitHigh _ c => simp [c, isPoll] at hp
    | _ => rfl

/-- R55, R65: a move of a read in progress ends the read, or is one more of its steps. -/
theorem FsmMove.done_or_stepsTaken {u t : State} (m : FsmMove u t) (h : StatusInv u) (hf : u.fsm ≠ 0x00#5) :
    t.done = true ∨ t.fsm ≠ 0x00#5 ∧ stepsTaken t = stepsTaken u + 1 := by
  by_cases hp : isPoll u.fsm = true
  · have hu : u.fsm ≠ 0x10#5 := fun c => by simp [c, isPoll] at hp
    cases m.pollMove hp with
    | timeout => exact .inr ⟨by simp, stepsTaken_of_no_request rfl (h.err_of_isPoll hp) hu (.inl rfl)⟩
    | delay | miss => exact .inr ⟨hf, stepsTaken_of_request rfl rfl hu hu⟩
    | hit =>
      have ⟨hlo, hhi⟩ := afterWait_fsm_bounds u.busGetLevel
      exact .inr ⟨fun c => by simp [c] at hlo, stepsTaken_of_request (by simp) (by simp) hu fun c => by simp [c] at hhi⟩
  · cases m with
    | bPoll _ c | cPoll _ c | dPoll _ c | bitLow _ c | bitHigh _ c => simp [c, isPoll] at hp
    | idle c => exact absurd c hf
    | relLvlErr | validateErr | decode => exact .inl rfl
    | validateOk c =>
      have he := h.okUntilRelease hf (by simp [c]) (by simp [c])
      exact .inr ⟨by simp, stepsTaken_of_no_request rfl he (by simp [c]) (.inr rfl)⟩
    | initDir c | initLvl c | aDir c | aLow c | aWait c | aRel c | bDir c | relDir c | relLvlOk c =>
      exact .inr ⟨by simp, stepsTaken_of_request rfl rfl (by simp [c]) (by simp)⟩

/-- R15: with nothing from the outside, a step of a run is a move of the FSM. -/
theorem Inv.step_move {s : State} (h : Inv s) (hi : s.inputs = []) : ∃ t, step s = .next t ∧ FsmMove s t := by
  obtain ⟨t, ht⟩ := noStepStops s h.fsm h.status h.sampler
  exact ⟨t, ht, fsm_move s t (step_quiet s hi h.status.errNeverInvalid ▸ ht)⟩

/-- R113, R137: a read in progress with at most `k` steps left ends within `k` steps. -/
theorem Inv.run_to_end {s : State} {k : Nat} (h : Inv s) (hf : s.fsm ≠ 0x00#5) (hi : s.inputs = [])
    (hk : readSteps s.cfg ≤ stepsTaken s + k) : ∃ n t, n ≤ k ∧ core.run n s = .next t ∧ Inv t ∧ t.done = true := by
  induction k generalizing s with
  | zero =>
    have hlt := h.stepsTaken_lt hf
    omega
  | succ k ih =>
    obtain ⟨t, ht, m⟩ := h.step_move hi
    have hinv := everyStepKeepsTheInvariants s t h ht
    rcases m.done_or_stepsTaken h.status hf with hd | ⟨hft, htaken⟩
    · exact ⟨1, t, by omega, run_one ht, hinv, hd⟩
    · obtain ⟨n, u, hn, hrun, hu⟩ := ih hinv hft (m.inputs_eq.trans hi) (by rw [m.cfg_eq, htaken]; omega)
      exact ⟨n + 1, u, by omega, (run_succ n s t ht).trans hrun, hu⟩

end Sys2Proof.Machine
end

section
/-! PROOF. The family "exceptions": the error code 11, the release after a timeout, and the end of every read. -/

namespace Sys2Proof.Machine

/-- Settles O47: `readSteps` bounds the steps of every read in progress, and the invariants hold where it ends. -/
theorem everyReadEnds : Obligations.EveryReadEnds := by
  unfold Obligations.EveryReadEnds
  intro s h hf hi
  obtain ⟨n, t, hn, hrun, ht, hd⟩ := h.run_to_end hf hi (Nat.le_add_left _ _)
  have ⟨hidle, hb⟩ := ht.status.idle_of_done hd
  exact ⟨n, t, hn, hrun, hidle, hb, hd, ht.pin.released hidle⟩

/-- Settles O42: REL_DIR, then REL_LVL with the error held. -/
theorem timeoutReleasesAndEnds : Obligations.TimeoutReleasesAndEnds := by
  unfold Obligations.TimeoutReleasesAndEnds
  exact fun _ hf he hi => run_release_of_timeout hf hi he

/-- Settles O8: the guard of `err` in a step and in REL_LVL, and the result's own case. -/
theorem invalidErrorCodeFaults : Obligations.InvalidErrorCodeFaults := by
  unfold Obligations.InvalidErrorCodeFaults
  refine fun s he => ⟨fun hr => step_of_invalid he fun hn => ?_, exec_relLvl_of_invalid he, fun hd => State.result_of_invalid hd he⟩
  obtain ⟨r, hi⟩ := s.nextInstr_eq_none_iff.mp hn
  exact hr r hi

end Sys2Proof.Machine
end

section
/-! SUPPORT. The default parameters as counts of polls, and a read's time and requests in every FSM state, the finished read's in IDLE
included (R75, R89, R97, R135). -/

namespace Sys2Proof.Machine

/-! ### R6, R75: the default parameters -/

/-- R75, R135: 20, 44 and 44 polls of the acknowledgments, 33 and 38 of each bit. -/
theorem mostPolls_default : mostPolls Params.default = 2948 := by decide

/-- R135: the start pulse of 20000 µs and 2 µs for each of the most polls. -/
theorem longestTime_default :
    Params.default.pTStart.toNat + Params.default.pG.toNat * mostPolls Params.default = 25896 := by
  rw [mostPolls_default]
  rfl

/-! ### R135: the time in every state -/

/-- R79 to R85: up to B_DIR nothing is delayed but the start pulse. -/
theorem latestEntry_startPulse_le (p : Params) {c : BitVec 5} (i : Nat) (hlo : 0x01 ≤ c.toNat) (hhi : c.toNat ≤ 0x07) :
    latestEntry p c i ≤ p.pTStart.toNat := by
  simp only [latestEntry]
  generalize c.toNat = n at hlo hhi
  interval_cases n <;> simp

/-- R135: a finished read rests in IDLE with the time of its release. -/
theorem latestEntry_idle (p : Params) (i : Nat) : latestEntry p 0x00#5 i = latestEntry p 0x0D#5 i := rfl

/-- R135: in every state a read's time is that of `P_T_START` and of at most the most polls. -/
theorem TimeInv.tBlk_le_mostPolls {s : State} (h : TimeInv s) (hs : SamplerInv s) :
    s.tBlk ≤ s.cfg.pTStart.toNat + s.cfg.pG.toNat * mostPolls s.cfg := by
  by_cases hwait : 0x08 ≤ s.fsm.toNat
  · exact h.tBlk_le hs hwait
  · rw [timeInv_iff_of_not_isPoll (by rw [isPoll_iff]; omega)] at h
    by_cases hidle : s.fsm = 0x00#5
    · rwa [hidle, latestEntry_idle, latestEntry_release] at h
    · have hpos : 1 ≤ s.fsm.toNat := Nat.one_le_iff_ne_zero.mpr fun e => hidle (BitVec.eq_of_toNat_eq e)
      have hstart := latestEntry_startPulse_le s.cfg s.i.toNat hpos (by omega)
      omega

/-! ### R75, R89, R97: the requests of a finished read -/

theorem RequestInv.balance_of_done {s : State} (h : RequestInv s) (hf : s.fsm = 0x00#5) (hd : s.done = true) :
    RequestsBalance s 0 9 :=
  have ⟨_, _, _, hb⟩ := h
  hb hf hd

/-- R89, R97: a finished read has issued at most the nine fixed requests and two for each of the most polls. -/
theorem Inv.trace_length_le_of_done {s : State} (h : Inv s) (hd : s.done = true) : s.trace.length ≤ 9 + 2 * mostPolls s.cfg :=
  (h.request.balance_of_done (h.status.idle_of_done hd).1 hd).trace_length_le (Params.one_le_pG h.sampler.cfgLegal)
    (h.time.tBlk_le_mostPolls h.sampler)

/-! ### R124, R126: what the host sees after a reset -/

theorem State.applyReset_result (s : State) : s.applyReset.result = State.reset.result := rfl

theorem State.applyReset_drive (s : State) : s.applyReset.drive = State.reset.drive := rfl

/-- R126: a reset presented is the whole step. -/
theorem step_of_inputs_reset {s : State} {r : List Input} (hi : s.inputs = .reset :: r) : step s = .next s.consume.applyReset :=
  step_of_nextInstr_none s (s.nextInstr_eq_none_iff.mpr ⟨r, hi⟩)

end Sys2Proof.Machine
end

section
/-! PROOF. The family "reset and hazards": what reset leaves, in whatever state it comes, and the bounds of a read's time and requests. -/

namespace Sys2Proof.Machine

/-- Settles O36: each step keeps the latest time of its FSM state, and no state's latest time passes that of the most polls. -/
theorem readTimeIsBounded : Obligations.ReadTimeIsBounded := by
  unfold Obligations.ReadTimeIsBounded
  refine ⟨fun s t _ hs hT ht => hT.step hs ht, fun s _ hs hT hc => ?_⟩
  have hbound := hT.tBlk_le_mostPolls hs
  rwa [hc, longestTime_default] at hbound

/-- Settles O37: each step keeps the requests in step with the time, which bounds them in a read in progress and in a finished one. -/
theorem readRequestsAreBounded : Obligations.ReadRequestsAreBounded := by
  unfold Obligations.ReadRequestsAreBounded
  refine ⟨fun s t h ht => h.request.step h.fsm h.time ht, fun s h hread hc => ?_⟩
  have hlen : s.trace.length ≤ 9 + 2 * mostPolls s.cfg := by
    rcases hread with hb | hd
    · exact h.trace_length_le (h.status.busyOutsideIdle.mp hb)
    · exact h.trace_length_le_of_done hd
  rwa [hc, mostPolls_default] at hlen

/-- Settles O5: each register is evaluated. -/
theorem resetLeavesTheValuesOfTheTable : Obligations.ResetLeavesTheValuesOfTheTable := by
  unfold Obligations.ResetLeavesTheValuesOfTheTable
  exact ⟨rfl, rfl, rfl, rfl, rfl, rfl, rfl, rfl, rfl, rfl, rfl, Memory.read_nil, rfl, rfl, rfl, State.result_of_not_done rfl, rfl⟩

/-- Settles O6: the step is the reset, which leaves each register at the value the table gives it. -/
theorem resetAbandonsAnyRead : Obligations.ResetAbandonsAnyRead := by
  unfold Obligations.ResetAbandonsAnyRead
  intro s r hi
  obtain ⟨hfsm, hsmp, hbusy, hdone, herr, htemp, hhum, hE, hlow, hhigh, hidx, hframe, hdir, hout, _, hresult, hdrive⟩ :=
    resetLeavesTheValuesOfTheTable
  exact ⟨s.consume.applyReset, step_of_inputs_reset hi, hfsm, hsmp, hbusy, hdone, herr, htemp, hhum, hE, hlow, hhigh, hidx, hframe,
    hdir, hout, s.consume.applyReset_result.trans hresult, s.consume.applyReset_drive.trans hdrive, rfl, by simp [hi], rfl⟩

/-- Settles O29: reset is in IDLE with nothing read, no error and no time or request on record. -/
theorem resetMeetsTheInvariants : Obligations.ResetMeetsTheInvariants := by
  unfold Obligations.ResetMeetsTheInvariants
  exact
    { fsm := ⟨by decide, by decide⟩
      status := statusInv_of_idle rfl rfl (by decide)
      pin := ⟨rfl, rfl⟩
      sampler := (samplerInv_iff _).mpr ⟨by decide, .of_not_isPoll rfl, .of_zero rfl (by decide)⟩
      frame := .of_cleared rfl
      result := resultInv_of_not_done rfl ⟨rfl, rfl⟩ (by decide) (absurd · (by decide))
      time := timeInv_of_le (Nat.zero_le _)
      request := requestInv_of_idle rfl (absurd · (by decide)) }

end Sys2Proof.Machine
end
